-- ==== Sys2Proof/Word.lean ====
section
/-!
DEFINITION. The widths of the block's data: bytes, words, the nibble and address fields of an instruction word, register and
key numbers, the register file, the pixel plane and the glyph table (00_scope.md R7, 10_state.md R21, R36).
-/

namespace Sys2Proof

/-- One memory byte, one general register, one timer (R7: V_WIDTH, TIMER_WIDTH, and R60). -/
abbrev Byte := BitVec 8

/-- An instruction word, I, PC and a stack entry: 16 bits (R7: I_WIDTH, PC_WIDTH, STACK_ENTRY_WIDTH, and R80). -/
abbrev Word := BitVec 16

/-- A 4-bit field of an instruction word (R81). -/
abbrev Nibble := BitVec 4

/-- The 12-bit address immediate nnn (R81). -/
abbrev Addr12 := BitVec 12

/-- A register number 0..15, naming V[x] (R21, R83). -/
abbrev Reg := Fin 16

/-- A logical key code 0..15 (R7: NUM_KEYS, and R37). -/
abbrev Key := Fin 16

/-- The sixteen registers V0..VF (R21). -/
abbrev RegFile := Vector Byte 16

/-- The 64 x 32 plane of bits: bit x of row y is plane[x][y] (R36). -/
abbrev Plane := Vector (BitVec 64) 32

/-- A glyph table: 16 glyphs of 5 bytes, the value of the parameter P_GLYPHS (R7: GLYPH_COUNT, GLYPH_SIZE). -/
abbrev GlyphTable := Vector Byte 80

end Sys2Proof
end

