-- ==== Sys2Proof/Config.lean ====
section
/-!
DEFINITION. The parameters of the block (00_scope.md R7) and its free values (R8): what the spec fixes for this hardware has a
value here, what it leaves open is an opaque constant that no proof can look into. P_GLYPHS, an argument with a default, is a
field of State, and its default stands here.
-/

namespace Sys2Proof.Config

/-- MEM_SIZE: addresses 0x000..0xFFF (R7, R60). -/
def memSize : Nat := 0x1000

/-- PC_RESET = LOAD_BASE (R7). -/
def loadBase : Nat := 0x200

/-- MAX_PROGRAM, the bytes 0x200..0xFFF (R7, R276). -/
def maxProgram : Nat := 0xE00

/-- STACK_DEPTH (R7, R27, D3). -/
def stackDepth : Nat := 16

/-- SPEED at power-up (R7, R270). -/
def defaultSpeed : Nat := 10

/-- Glyphs 0 to 7 of the default table of 70_reset_and_hazards.md R272. -/
def glyphsLow : List Byte :=
  [0xF0, 0x90, 0x90, 0x90, 0xF0] ++ [0x20, 0x60, 0x20, 0x20, 0x70] ++
  [0xF0, 0x10, 0xF0, 0x80, 0xF0] ++ [0xF0, 0x10, 0xF0, 0x10, 0xF0] ++
  [0x90, 0x90, 0xF0, 0x10, 0x10] ++ [0xF0, 0x80, 0xF0, 0x10, 0xF0] ++
  [0xF0, 0x80, 0xF0, 0x90, 0xF0] ++ [0xF0, 0x10, 0x20, 0x40, 0x40]

/-- Glyphs 8 to F of the default table of R272. -/
def glyphsHigh : List Byte :=
  [0xF0, 0x90, 0xF0, 0x90, 0xF0] ++ [0xF0, 0x90, 0xF0, 0x10, 0xF0] ++
  [0xF0, 0x90, 0xF0, 0x90, 0x90] ++ [0xE0, 0x90, 0xE0, 0x90, 0xE0] ++
  [0xF0, 0x80, 0x80, 0x80, 0xF0] ++ [0xE0, 0x90, 0x90, 0x90, 0xE0] ++
  [0xF0, 0x80, 0xF0, 0x80, 0xF0] ++ [0xF0, 0x80, 0xF0, 0x80, 0x80]

/-- The default of P_GLYPHS, the 80 glyph bytes of R272. P_GLYPHS itself is a parameter of the block: the field `glyphs` of State,
which `State.reset` sets to this default (R7, D18; log entry 5). -/
def defaultGlyphs : GlyphTable := ⟨(glyphsLow ++ glyphsHigh).toArray, rfl⟩

/-- The two orders of the V[x] and VF writes (42_alu.md R141). -/
inductive VfDest where
  /-- FLAG_LAST: V[x] first, then VF, so that x = 0xF leaves the flag. -/
  | flagLast
  /-- RESULT_LAST: VF first, then V[x], so that x = 0xF leaves the result. -/
  | resultLast
  deriving DecidableEq, Repr, Inhabited

/-- P_VF_DEST, left OPEN by R7, R141 and D11: which of the two orders this hardware has is not known (log entry 4, safe). -/
opaque vfDest : VfDest

/-- The random byte of RND, one for each draw (R8, R153, D23): the `n`-th draw of a run (log entry 1, safe). -/
opaque randomByte : Nat → Byte

/-- The answer of the key-state port (R8, R203, D21): for the `n`-th draw of a run and the byte V[x] asked about, values of 16
and more included (log entry 2, safe). -/
opaque keyAnswer : Nat → Byte → Bool

/-- The content of the pixel plane when the block is created (R8, R36, D25; log entry 3, safe). -/
opaque initialPlane : Plane

end Sys2Proof.Config
end

