-- ==== Sys2Proof/Syntax.lean ====
section
/-!
DEFINITION. The instruction set: one constructor per row of the opcode table (30_encoding.md R84), in the table's order.
A register operand is a register number 0..15, an immediate has the width of its field (R83). SHR and SHL keep the y they
are encoded with, which nothing reads (R93).
-/

namespace Sys2Proof

/-- The 34 instructions (R84). -/
inductive Instr where
  /-- CLS, 00E0: clear the pixel plane (R200). -/
  | cls
  /-- RET, 00EE: return from subroutine (R120). -/
  | ret
  /-- JP_ADDR, 1nnn: jump (R121). -/
  | jpAddr (nnn : Addr12)
  /-- CALL_ADDR, 2nnn: call subroutine (R122). -/
  | callAddr (nnn : Addr12)
  /-- SE_Vx_BYTE, 3xkk: skip if V[x] = kk (R123). -/
  | seVxByte (x : Reg) (kk : Byte)
  /-- SNE_Vx_BYTE, 4xkk: skip if V[x] differs from kk (R124). -/
  | sneVxByte (x : Reg) (kk : Byte)
  /-- SE_Vx_Vy, 5xy0: skip if V[x] = V[y] (R125). -/
  | seVxVy (x y : Reg)
  /-- LD_Vx_BYTE, 6xkk: load byte (R142). -/
  | ldVxByte (x : Reg) (kk : Byte)
  /-- ADD_Vx_BYTE, 7xkk: add byte, no flag (R143). -/
  | addVxByte (x : Reg) (kk : Byte)
  /-- LD_Vx_Vy, 8xy0: copy register (R144). -/
  | ldVxVy (x y : Reg)
  /-- OR, 8xy1 (R145). -/
  | orVxVy (x y : Reg)
  /-- AND, 8xy2 (R146). -/
  | andVxVy (x y : Reg)
  /-- XOR, 8xy3 (R147). -/
  | xorVxVy (x y : Reg)
  /-- ADD_Vx_Vy, 8xy4: add with carry out (R148). -/
  | addVxVy (x y : Reg)
  /-- SUB_Vx_Vy, 8xy5: subtract (R149). -/
  | subVxVy (x y : Reg)
  /-- SHR, 8xy6: shift right by one (R150). -/
  | shr (x y : Reg)
  /-- SUBN, 8xy7: reverse subtract (R151). -/
  | subn (x y : Reg)
  /-- SHL, 8xyE: shift left by one (R152). -/
  | shl (x y : Reg)
  /-- SNE_Vx_Vy, 9xy0: skip if V[x] differs from V[y] (R126). -/
  | sneVxVy (x y : Reg)
  /-- LD_I_ADDR, Annn: load I (R170). -/
  | ldIAddr (nnn : Addr12)
  /-- JP_V0_ADDR, Bnnn: jump to nnn plus V0 (R127). -/
  | jpV0Addr (nnn : Addr12)
  /-- RND, Cxkk: random byte masked (R153). -/
  | rnd (x : Reg) (kk : Byte)
  /-- DRW, Dxyn: draw sprite with collision (R201). -/
  | drw (x y : Reg) (n : Nibble)
  /-- SKP_Vx, Ex9E: skip if key pressed (R204). -/
  | skpVx (x : Reg)
  /-- SKNP_Vx, ExA1: skip if key not pressed (R205). -/
  | sknpVx (x : Reg)
  /-- LD_Vx_DT, Fx07: read the delay timer (R185). -/
  | ldVxDt (x : Reg)
  /-- LD_Vx_K, Fx0A: wait for a key press (R206). -/
  | ldVxK (x : Reg)
  /-- LD_DT_Vx, Fx15: set the delay timer (R186). -/
  | ldDtVx (x : Reg)
  /-- LD_ST_Vx, Fx18: set the sound timer (R187). -/
  | ldStVx (x : Reg)
  /-- ADD_I_Vx, Fx1E: add register to I (R171). -/
  | addIVx (x : Reg)
  /-- LD_F_Vx, Fx29: point I at a glyph (R172). -/
  | ldFVx (x : Reg)
  /-- LD_B_Vx, Fx33: store BCD (R173). -/
  | ldBVx (x : Reg)
  /-- LD_I_Vx, Fx55: store registers V0..Vx (R174). -/
  | ldIVx (x : Reg)
  /-- LD_Vx_I, Fx65: load registers V0..Vx (R175). -/
  | ldVxI (x : Reg)
  deriving DecidableEq, Repr

end Sys2Proof
end

