-- ==== Sys2Proof/WellFormed.lean ====
section
/-!
DEFINITION. Well-formedness: of an instruction (its operands are in range), of an instruction word (it matches a row of the
opcode table of 30_encoding.md R84), and of a program image (it fits between 0x200 and 0xFFF, 70_reset_and_hazards.md R276).
-/

namespace Sys2Proof

/-- A register operand names one of V0..VF (R83). -/
def Reg.inRange (x : Reg) : Bool := decide (x.val < 16)

/-- Every operand of the instruction has a value its field can hold (R81, R83). The operand types carry these bounds already, so
no term of `Instr` fails the check (`Instr.wellFormed_all` in Laws/Encoding.lean); what can be ill-formed on this hardware is a
word or a program image, below. -/
def Instr.wellFormed : Instr → Bool
  | .cls | .ret => true
  | .jpAddr nnn | .callAddr nnn | .ldIAddr nnn | .jpV0Addr nnn => decide (nnn.toNat < 0x1000)
  | .seVxByte x kk | .sneVxByte x kk | .ldVxByte x kk | .addVxByte x kk | .rnd x kk => x.inRange && decide (kk.toNat < 0x100)
  | .seVxVy x y | .sneVxVy x y | .ldVxVy x y | .orVxVy x y | .andVxVy x y | .xorVxVy x y => x.inRange && y.inRange
  | .addVxVy x y | .subVxVy x y | .shr x y | .subn x y | .shl x y => x.inRange && y.inRange
  | .drw x y n => x.inRange && y.inRange && decide (n.toNat < 0x10)
  | .skpVx x | .sknpVx x | .ldVxDt x | .ldVxK x | .ldDtVx x | .ldStVx x => x.inRange
  | .addIVx x | .ldFVx x | .ldBVx x | .ldIVx x | .ldVxI x => x.inRange

/-- One row of the opcode table: a word `w` matches it when `w &&& mask = value` (R84). -/
structure OpcodeRow where
  /-- The operation tag, which is the mnemonic (R17). -/
  tag : String
  /-- The bits the row fixes. -/
  mask : Word
  /-- The values it fixes them at. -/
  value : Word
  deriving DecidableEq, Repr

/-- The word matches the row (R84). -/
def OpcodeRow.matchesWord (r : OpcodeRow) (w : Word) : Bool := decide (w &&& r.mask = r.value)

/-- The row of the table an instruction stands for (R84). -/
def Instr.row : Instr → OpcodeRow
  | .cls => ⟨"CLS", 0xFFFF, 0x00E0⟩
  | .ret => ⟨"RET", 0xFFFF, 0x00EE⟩
  | .jpAddr _ => ⟨"JP_ADDR", 0xF000, 0x1000⟩
  | .callAddr _ => ⟨"CALL_ADDR", 0xF000, 0x2000⟩
  | .seVxByte _ _ => ⟨"SE_Vx_BYTE", 0xF000, 0x3000⟩
  | .sneVxByte _ _ => ⟨"SNE_Vx_BYTE", 0xF000, 0x4000⟩
  | .seVxVy _ _ => ⟨"SE_Vx_Vy", 0xF00F, 0x5000⟩
  | .ldVxByte _ _ => ⟨"LD_Vx_BYTE", 0xF000, 0x6000⟩
  | .addVxByte _ _ => ⟨"ADD_Vx_BYTE", 0xF000, 0x7000⟩
  | .ldVxVy _ _ => ⟨"LD_Vx_Vy", 0xF00F, 0x8000⟩
  | .orVxVy _ _ => ⟨"OR", 0xF00F, 0x8001⟩
  | .andVxVy _ _ => ⟨"AND", 0xF00F, 0x8002⟩
  | .xorVxVy _ _ => ⟨"XOR", 0xF00F, 0x8003⟩
  | .addVxVy _ _ => ⟨"ADD_Vx_Vy", 0xF00F, 0x8004⟩
  | .subVxVy _ _ => ⟨"SUB_Vx_Vy", 0xF00F, 0x8005⟩
  | .shr _ _ => ⟨"SHR", 0xF00F, 0x8006⟩
  | .subn _ _ => ⟨"SUBN", 0xF00F, 0x8007⟩
  | .shl _ _ => ⟨"SHL", 0xF00F, 0x800E⟩
  | .sneVxVy _ _ => ⟨"SNE_Vx_Vy", 0xF00F, 0x9000⟩
  | .ldIAddr _ => ⟨"LD_I_ADDR", 0xF000, 0xA000⟩
  | .jpV0Addr _ => ⟨"JP_V0_ADDR", 0xF000, 0xB000⟩
  | .rnd _ _ => ⟨"RND", 0xF000, 0xC000⟩
  | .drw _ _ _ => ⟨"DRW", 0xF000, 0xD000⟩
  | .skpVx _ => ⟨"SKP_Vx", 0xF0FF, 0xE09E⟩
  | .sknpVx _ => ⟨"SKNP_Vx", 0xF0FF, 0xE0A1⟩
  | .ldVxDt _ => ⟨"LD_Vx_DT", 0xF0FF, 0xF007⟩
  | .ldVxK _ => ⟨"LD_Vx_K", 0xF0FF, 0xF00A⟩
  | .ldDtVx _ => ⟨"LD_DT_Vx", 0xF0FF, 0xF015⟩
  | .ldStVx _ => ⟨"LD_ST_Vx", 0xF0FF, 0xF018⟩
  | .addIVx _ => ⟨"ADD_I_Vx", 0xF0FF, 0xF01E⟩
  | .ldFVx _ => ⟨"LD_F_Vx", 0xF0FF, 0xF029⟩
  | .ldBVx _ => ⟨"LD_B_Vx", 0xF0FF, 0xF033⟩
  | .ldIVx _ => ⟨"LD_I_Vx", 0xF0FF, 0xF055⟩
  | .ldVxI _ => ⟨"LD_Vx_I", 0xF0FF, 0xF065⟩

/-- One instruction per row, its operands zero, rows 1 to 17 of R84. -/
def tableInstrsLow : List Instr :=
  [.cls, .ret, .jpAddr 0, .callAddr 0, .seVxByte 0 0, .sneVxByte 0 0, .seVxVy 0 0, .ldVxByte 0 0, .addVxByte 0 0] ++
  [.ldVxVy 0 0, .orVxVy 0 0, .andVxVy 0 0, .xorVxVy 0 0, .addVxVy 0 0, .subVxVy 0 0, .shr 0 0, .subn 0 0]

/-- One instruction per row, its operands zero, rows 18 to 34 of R84. -/
def tableInstrsHigh : List Instr :=
  [.shl 0 0, .sneVxVy 0 0, .ldIAddr 0, .jpV0Addr 0, .rnd 0 0, .drw 0 0 0, .skpVx 0, .sknpVx 0] ++
  [.ldVxDt 0, .ldVxK 0, .ldDtVx 0, .ldStVx 0, .addIVx 0, .ldFVx 0, .ldBVx 0, .ldIVx 0, .ldVxI 0]

/-- The 34 rows of the opcode table, in its order (R84). -/
def opcodeTable : List OpcodeRow := (tableInstrsLow ++ tableInstrsHigh).map Instr.row

/-- The word matches some row of the table; a word that matches none is illegal (R91). -/
def legalWord (w : Word) : Bool := opcodeTable.any fun r => r.matchesWord w

/-- The program image fits into 0x200..0xFFF, so that load accepts it (R274, R276). -/
def programFits (p : List Byte) : Bool := decide (p.length ≤ Config.maxProgram)

end Sys2Proof
end

