-- ==== Sys2Proof/Decode.lean ====
section
/-!
DEFINITION. The instruction decoder (30_encoding.md R80 to R96) and, after it, the encoder. Decoding is total: a word either
is one of the 34 instructions or is rejected by name (R84, R91), and it reads no state (R96).
-/

namespace Sys2Proof

/-- Why bytes are no instruction. -/
inductive DecodeReject where
  /-- The word matches no row of the table: DecodeError (R91, R231). -/
  | decodeError (w : Word)
  /-- Fewer than the two bytes of an instruction word (R94). -/
  | truncated
  deriving DecidableEq, Repr

/-- The fields of an instruction word, extracted from every word whatever its opcode (R81, R95). -/
structure Fields where
  /-- w[15:12], the group. -/
  op : Nibble
  /-- w[11:8], the register index of Vx. -/
  x : Reg
  /-- w[7:4], the register index of Vy. -/
  y : Reg
  /-- w[3:0], nibble immediate or sub-opcode. -/
  n : Nibble
  /-- w[7:0], byte immediate or sub-opcode. -/
  kk : Byte
  /-- w[11:0], address immediate. -/
  nnn : Addr12
  deriving DecidableEq, Repr

/-- The fields of a word (R81). -/
def fieldsOf (w : Word) : Fields where
  op := w.extractLsb' 12 4
  x := (w.extractLsb' 8 4).toFin
  y := (w.extractLsb' 4 4).toFin
  n := w.extractLsb' 0 4
  kk := w.extractLsb' 0 8
  nnn := w.extractLsb' 0 12

/-- Group 0, by the whole word (R86): every other 0nnn word is DecodeError (C1, D32). -/
def decodeGroup0 (w : Word) : Except DecodeReject Instr :=
  if w = 0x00E0#16 then .ok .cls
  else if w = 0x00EE#16 then .ok .ret
  else .error (.decodeError w)

/-- Group 8, by n (R88). -/
def decodeGroup8 (w : Word) (f : Fields) : Except DecodeReject Instr :=
  match f.n.toNat with
  | 0x0 => .ok (.ldVxVy f.x f.y)
  | 0x1 => .ok (.orVxVy f.x f.y)
  | 0x2 => .ok (.andVxVy f.x f.y)
  | 0x3 => .ok (.xorVxVy f.x f.y)
  | 0x4 => .ok (.addVxVy f.x f.y)
  | 0x5 => .ok (.subVxVy f.x f.y)
  | 0x6 => .ok (.shr f.x f.y)
  | 0x7 => .ok (.subn f.x f.y)
  | 0xE => .ok (.shl f.x f.y)
  | _ => .error (.decodeError w)

/-- Group E, by kk (R89). -/
def decodeGroupE (w : Word) (f : Fields) : Except DecodeReject Instr :=
  match f.kk.toNat with
  | 0x9E => .ok (.skpVx f.x)
  | 0xA1 => .ok (.sknpVx f.x)
  | _ => .error (.decodeError w)

/-- Group F, by kk (R90). -/
def decodeGroupF (w : Word) (f : Fields) : Except DecodeReject Instr :=
  match f.kk.toNat with
  | 0x07 => .ok (.ldVxDt f.x)
  | 0x0A => .ok (.ldVxK f.x)
  | 0x15 => .ok (.ldDtVx f.x)
  | 0x18 => .ok (.ldStVx f.x)
  | 0x1E => .ok (.addIVx f.x)
  | 0x29 => .ok (.ldFVx f.x)
  | 0x33 => .ok (.ldBVx f.x)
  | 0x55 => .ok (.ldIVx f.x)
  | 0x65 => .ok (.ldVxI f.x)
  | _ => .error (.decodeError w)

/-- The opcode map by the top nibble (R85, with R86 to R90), for a word and its fields. The last arm is reached by no nibble. -/
def decodeFields (w : Word) (f : Fields) : Except DecodeReject Instr :=
  match f.op.toNat with
  | 0x0 => decodeGroup0 w
  | 0x1 => .ok (.jpAddr f.nnn)
  | 0x2 => .ok (.callAddr f.nnn)
  | 0x3 => .ok (.seVxByte f.x f.kk)
  | 0x4 => .ok (.sneVxByte f.x f.kk)
  | 0x5 => if f.n = 0#4 then .ok (.seVxVy f.x f.y) else .error (.decodeError w)
  | 0x6 => .ok (.ldVxByte f.x f.kk)
  | 0x7 => .ok (.addVxByte f.x f.kk)
  | 0x8 => decodeGroup8 w f
  | 0x9 => if f.n = 0#4 then .ok (.sneVxVy f.x f.y) else .error (.decodeError w)
  | 0xA => .ok (.ldIAddr f.nnn)
  | 0xB => .ok (.jpV0Addr f.nnn)
  | 0xC => .ok (.rnd f.x f.kk)
  | 0xD => .ok (.drw f.x f.y f.n)
  | 0xE => decodeGroupE w f
  | 0xF => decodeGroupF w f
  | _ => .error (.decodeError w)

/-- The decoder, equivalent to the table of R84. -/
def decode (w : Word) : Except DecodeReject Instr := decodeFields w (fieldsOf w)

/-- The word whose bytes stand at two consecutive addresses, the byte at the lower address more significant (20_memory.md R62). -/
def wordOfBytes (hi lo : Byte) : Word := hi ++ lo

/-- The more significant byte of a word, which stands at the lower address (R62). -/
def highByte (w : Word) : Byte := w.extractLsb' 8 8

/-- The less significant byte of a word (R62). -/
def lowByte (w : Word) : Byte := w.extractLsb' 0 8

/-- Decoding from bytes: the instruction of the first two bytes, and the bytes after it (R62, R94). -/
def decodeBytes : List Byte → Except DecodeReject (Instr × List Byte)
  | hi :: lo :: rest =>
    match decode (wordOfBytes hi lo) with
    | .ok i => .ok (i, rest)
    | .error e => .error e
  | _ => .error .truncated

/-- The instruction of a table row's word: `w` numbered as the opcode table numbers its bits, of which the row gives `nbits`.
Every instruction is one 16-bit word, so bits 15..8 are the byte at the lower address (R62). -/
def decodeTableWord (nbits w : Nat) : Option Instr :=
  let word := BitVec.ofNat 16 (w % 2 ^ nbits)
  match decodeBytes [highByte word, lowByte word] with
  | .ok (i, _) => some i
  | .error _ => none

/-- A word of the form op nnn (R81). -/
def encodeNnn (op : Nibble) (nnn : Addr12) : Word := op ++ nnn

/-- A word of the form op x kk (R81). -/
def encodeXkk (op : Nibble) (x : Reg) (kk : Byte) : Word := op ++ BitVec.ofFin (w := 4) x ++ kk

/-- A word of the form op x y n (R81). -/
def encodeXyn (op : Nibble) (x y : Reg) (n : Nibble) : Word :=
  op ++ BitVec.ofFin (w := 4) x ++ BitVec.ofFin (w := 4) y ++ n

/-- The encoder: the word of an instruction, from the patterns of R84. -/
def encode : Instr → Word
  | .cls => 0x00E0#16
  | .ret => 0x00EE#16
  | .jpAddr nnn => encodeNnn 0x1#4 nnn
  | .callAddr nnn => encodeNnn 0x2#4 nnn
  | .seVxByte x kk => encodeXkk 0x3#4 x kk
  | .sneVxByte x kk => encodeXkk 0x4#4 x kk
  | .seVxVy x y => encodeXyn 0x5#4 x y 0x0#4
  | .ldVxByte x kk => encodeXkk 0x6#4 x kk
  | .addVxByte x kk => encodeXkk 0x7#4 x kk
  | .ldVxVy x y => encodeXyn 0x8#4 x y 0x0#4
  | .orVxVy x y => encodeXyn 0x8#4 x y 0x1#4
  | .andVxVy x y => encodeXyn 0x8#4 x y 0x2#4
  | .xorVxVy x y => encodeXyn 0x8#4 x y 0x3#4
  | .addVxVy x y => encodeXyn 0x8#4 x y 0x4#4
  | .subVxVy x y => encodeXyn 0x8#4 x y 0x5#4
  | .shr x y => encodeXyn 0x8#4 x y 0x6#4
  | .subn x y => encodeXyn 0x8#4 x y 0x7#4
  | .shl x y => encodeXyn 0x8#4 x y 0xE#4
  | .sneVxVy x y => encodeXyn 0x9#4 x y 0x0#4
  | .ldIAddr nnn => encodeNnn 0xA#4 nnn
  | .jpV0Addr nnn => encodeNnn 0xB#4 nnn
  | .rnd x kk => encodeXkk 0xC#4 x kk
  | .drw x y n => encodeXyn 0xD#4 x y n
  | .skpVx x => encodeXkk 0xE#4 x 0x9E#8
  | .sknpVx x => encodeXkk 0xE#4 x 0xA1#8
  | .ldVxDt x => encodeXkk 0xF#4 x 0x07#8
  | .ldVxK x => encodeXkk 0xF#4 x 0x0A#8
  | .ldDtVx x => encodeXkk 0xF#4 x 0x15#8
  | .ldStVx x => encodeXkk 0xF#4 x 0x18#8
  | .addIVx x => encodeXkk 0xF#4 x 0x1E#8
  | .ldFVx x => encodeXkk 0xF#4 x 0x29#8
  | .ldBVx x => encodeXkk 0xF#4 x 0x33#8
  | .ldIVx x => encodeXkk 0xF#4 x 0x55#8
  | .ldVxI x => encodeXkk 0xF#4 x 0x65#8

end Sys2Proof
end

