-- ==== Sys2Proof/Machine/State.lean ====
section
/-!
DEFINITION. The machine's state (10_state.md R20), the reasons a step can stop, and the state right after power-up (R40,
70_reset_and_hazards.md R270).
-/

namespace Sys2Proof.Machine

/-- RUN_STATE (R34). -/
inductive RunState where
  /-- Before any load, or after reset. -/
  | idle
  /-- A program is loaded. With PAUSE true this is the source's Paused. -/
  | ready
  /-- After a fault, until reset or load. -/
  | faulted
  deriving DecidableEq, Repr

/-- The fault records of 60_exceptions.md R237, one constructor per fault a step can raise (R230). The spec describes the whole
of fault entry (R237, R108), so raising one is a NEXT state that holds the record in FAULT; no step answers `Outcome.fault`. Every
constructor is safe: the record and the entry are the spec's own. -/
inductive Fault where
  /-- Code 1, DecodeError: raised by the slot whose word matches no pattern (R231). Safe. -/
  | decodeError (word pc : Word)
  /-- Code 2, StackUnderflow: raised by RET with an empty stack (R232). Safe. -/
  | stackUnderflow (pc : Word) (depth : Nat)
  /-- Code 3, StackOverflow: raised by CALL_ADDR with 16 frames held (R233). Safe. -/
  | stackOverflow (pc : Word) (depth : Nat)
  /-- Code 4, MemoryOutOfRange: raised by a fetch, DRW, LD_B_Vx, LD_I_Vx or LD_Vx_I whose range passes 0xFFF (R234). Safe. -/
  | memoryOutOfRange (pc addr : Word)
  deriving DecidableEq, Repr

/-- Why exec could have no meaning for an instruction. -/
inductive Refusal where
  /-- An instruction without a meaning, by its mnemonic. Raised by no arm of exec: every instruction is modelled. Safe. -/
  | notModelled (mnemonic : String)
  deriving DecidableEq, Repr

/-- What a host call returns (R35). -/
inductive CallResult where
  /-- `ok`, of tick and load (R109, R274). -/
  | ok
  /-- tick's fault record (R108 to R110). -/
  | fault (f : Fault)
  /-- LoadError, with the rejected program's length (R235, R276). -/
  | loadError (length : Nat)
  deriving DecidableEq, Repr

/-- The calls the block makes on its ports (00_scope.md R14). -/
inductive PortEvent where
  /-- plane.clear() (R36). -/
  | clear
  /-- plane.set_pixel(x, y, bit) (R36). -/
  | setPixel (x y : Nat) (bit : Bool)
  /-- plane.present() (R36). -/
  | present
  /-- keys.is_pressed(k), or for k of 16 and more the query of R203 (R37). -/
  | isPressed (k : Byte)
  /-- keys.on_next_key_press, the registration for register x (R37, R206). -/
  | onNextKeyPress (x : Reg)
  /-- tone.start() (R38). -/
  | toneStart
  /-- tone.stop() (R38). -/
  | toneStop
  deriving DecidableEq, Repr

/-- The host's transitions: the control surface and the key-press event (R35). -/
inductive HostCall where
  /-- load(program) (R274). -/
  | load (program : List Byte)
  /-- tick() (R100). -/
  | tick
  /-- reset() (R271). -/
  | reset
  /-- set_speed(n) (R31). -/
  | setSpeed (n : Nat)
  /-- The key-press event with logical key code k (R207). -/
  | keyPress (k : Key)
  deriving DecidableEq, Repr

/-- Where the tick scheduler stands (40_cycle.md R100). -/
inductive Phase where
  /-- No tick is running; host transitions happen here, and only here (R111). -/
  | between
  /-- Inside a tick that has `left` slots still to run; with none left, the closing stages come next (R107). -/
  | slots (left : Nat)
  deriving DecidableEq, Repr

/-- The 4096 bytes of memory (20_memory.md R60): the cells that differ from the reset contents, addresses strictly rising. -/
abbrev Memory := List Host.Cell

/-- The state record (R20), the pixel plane of the port (R36) and the parameter P_GLYPHS (R7), and after them the model's own fields
(log entries 7 to 9). -/
structure State where
  /-- V[0..15] (R21). -/
  v : RegFile
  /-- I (R24). -/
  i : Word
  /-- PC (R25). -/
  pc : Word
  /-- STACK, oldest entry first (R11, R27). -/
  stack : List Word
  /-- DT (R28). -/
  dt : Byte
  /-- ST (R28). -/
  st : Byte
  /-- mem (R60). -/
  mem : Memory
  /-- SPEED (R31). -/
  speed : Nat
  /-- PAUSE (R32). -/
  pause : Bool
  /-- PENDING_KEY (R33). -/
  pendingKey : Option Reg
  /-- RUN_STATE (R34). -/
  runState : RunState
  /-- FAULT (R30, R34). -/
  fault : Option Fault
  /-- The pixel plane (R36). -/
  plane : Plane
  /-- P_GLYPHS, the block's glyph bytes: a parameter, which no transition writes (00_scope.md R7, R272; log entry 5). -/
  glyphs : GlyphTable
  /-- The model's own: where the tick scheduler stands (R100). -/
  phase : Phase
  /-- The model's own: what the last host call returned, none where it returns nothing (R35). -/
  lastResult : Option CallResult
  /-- The model's own: the port calls made so far, newest first (R14, R114). -/
  history : List PortEvent
  /-- The model's own: how many draws have been consumed; it indexes the free values of Config (R8). -/
  draws : Nat
  /-- The model's own: the host calls still to come, in order (R114). -/
  script : List HostCall
  deriving DecidableEq, Repr

/-- The state right after power-up of a block with the glyph bytes `g` (R7, R40, R270): Idle, nothing loaded, SPEED 10, the plane's
content the run's input. -/
def State.powerUp (g : GlyphTable) : State where
  v := Vector.replicate 16 0
  i := 0
  pc := 0x200
  stack := []
  dt := 0
  st := 0
  mem := []
  speed := Config.defaultSpeed
  pause := false
  pendingKey := none
  runState := .idle
  fault := none
  plane := Config.initialPlane
  glyphs := g
  phase := .between
  lastResult := none
  history := []
  draws := 0
  script := []

/-- The state right after power-up, P_GLYPHS at the default of R272. -/
def State.reset : State := State.powerUp Config.defaultGlyphs

end Sys2Proof.Machine
end

