-- ==== Sys2Proof/Machine/Ops.lean ====
section
/-!
DEFINITION. The named operations over memory, registers, the stack and the port history, and fault entry with what leaves it
(20_memory.md, 00_scope.md R11 to R14, 60_exceptions.md R237 to R239).
-/

namespace Sys2Proof.Machine

/-- What an unlisted address reads as: its contents after reset, the byte of P_GLYPHS below 0x050 and 0x00 above (R40, R272). -/
def Memory.initial (g : GlyphTable) (a : Nat) : Byte := if h : a < 80 then g[a] else 0

/-- The byte at an address. Every access of the machine is range-checked first, so that no instruction reads one of 0x1000 and
more; such an address, which does not exist, is listed by no memory and reads as its `initial` byte (log entry 12). -/
def Memory.read (g : GlyphTable) : Memory → Nat → Byte
  | [], a => Memory.initial g a
  | (a', b) :: rest, a => if a' = a then b else Memory.read g rest a

/-- The memory without a cell for address `a`. -/
def Memory.drop (a : Nat) : Memory → Memory
  | [] => []
  | (a', b) :: rest => if a' = a then Memory.drop a rest else (a', b) :: Memory.drop a rest

/-- The memory with a cell for address `a` put before the first higher address. -/
def Memory.place (a : Nat) (b : Byte) : Memory → Memory
  | [] => [(a, b)]
  | (a', b') :: rest => if a < a' then (a, b) :: (a', b') :: rest else (a', b') :: Memory.place a b rest

/-- `mem[a] <- b` (R12, R66). A byte equal to the reset contents is not listed. An address of 0x1000 and more does not exist, and
nothing is written there; no instruction tries to, since every access is range-checked first. -/
def Memory.write (g : GlyphTable) (m : Memory) (a : Nat) (b : Byte) : Memory :=
  if a < Config.memSize then
    if b = Memory.initial g a then Memory.drop a m else Memory.place a b (Memory.drop a m)
  else m

/-- The `n` bytes at `a`, `a+1`, ... in that order (R12, R65). -/
def Memory.readBytes (g : GlyphTable) (m : Memory) (a : Nat) : Nat → List Byte
  | 0 => []
  | n + 1 => Memory.read g m a :: Memory.readBytes g m (a + 1) n

/-- Stores bytes at `a`, `a+1`, ... in that order (R12, R65). -/
def Memory.writeBytes (g : GlyphTable) (m : Memory) (a : Nat) : List Byte → Memory
  | [] => m
  | b :: bs => Memory.writeBytes g (Memory.write g m a b) (a + 1) bs

/-- The cells from address `lo` on are in canonical form. -/
def Memory.wfFrom (g : GlyphTable) (lo : Nat) : Memory → Bool
  | [] => true
  | (a, b) :: rest =>
    decide (lo ≤ a) && decide (a < Config.memSize) && decide (b ≠ Memory.initial g a) && Memory.wfFrom g (a + 1) rest

/-- The canonical form: addresses strictly rising and below 0x1000, and no cell equal to the reset contents. -/
def Memory.wf (g : GlyphTable) (m : Memory) : Bool := Memory.wfFrom g 0 m

/-- `mem[a]` of the block (R12). -/
def State.byte (s : State) (a : Nat) : Byte := Memory.read s.glyphs s.mem a

/-- The `n` bytes of the block's memory at `a` (R12). -/
def State.bytes (s : State) (a n : Nat) : List Byte := Memory.readBytes s.glyphs s.mem a n

/-- The instruction word at `a`: the bytes at `a` and `a + 1`, high byte first (R62, 40_cycle.md R103). -/
def State.wordAt (s : State) (a : Nat) : Word := wordOfBytes (s.byte a) (s.byte (a + 1))

/-- The bytes stored in the block's memory at `a`, `a+1`, ... in that order (R12). -/
def State.store (s : State) (a : Nat) (bs : List Byte) : State := { s with mem := Memory.writeBytes s.glyphs s.mem a bs }

/-- `V[r]` (R11, R21). -/
def State.reg (s : State) (r : Reg) : Byte := s.v[r.val]

/-- `V[x] <- b` (R11, R21). -/
def State.setReg (s : State) (x : Reg) (b : Byte) : State := { s with v := s.v.set x.val b }

/-- All sixteen registers at once, for LD_Vx_I (43_index_memory.md R175). -/
def State.setRegs (s : State) (v : RegFile) : State := { s with v := v }

/-- `I <- w` (R11, R24). -/
def State.setI (s : State) (w : Word) : State := { s with i := w }

/-- `PC <- w` (R11, R25). -/
def State.jump (s : State) (w : Word) : State := { s with pc := w }

/-- The implicit +2 of the fetch stage, from the instruction's address (40_cycle.md R105). -/
def State.advance (s : State) : State := { s with pc := s.pc + 2 }

/-- The +2 of the fetch stage and, where the skip condition holds, the further +2 (R105, R106). -/
def State.skip (s : State) (taken : Bool) : State := { s with pc := if taken then s.pc + 4 else s.pc + 2 }

/-- `DT <- b` (R28). -/
def State.setDt (s : State) (b : Byte) : State := { s with dt := b }

/-- `ST <- b` (R28). -/
def State.setSt (s : State) (b : Byte) : State := { s with st := b }

/-- The stack replaced, by push or pop. -/
def State.setStack (s : State) (st : List Word) : State := { s with stack := st }

/-- The plane replaced, by the port's operations (R36). -/
def State.setPlane (s : State) (p : Plane) : State := { s with plane := p }

/-- Port calls made in the order of the list (R14, R112). -/
def State.emit (s : State) (es : List PortEvent) : State := { s with history := es.reverse ++ s.history }

/-- One draw consumed (R8). -/
def State.consumeDraw (s : State) : State := { s with draws := s.draws + 1 }

/-- PAUSE and PENDING_KEY set, for register x (R206). -/
def State.awaitKey (s : State) (x : Reg) : State := { s with pause := true, pendingKey := some x }

/-- The tick scheduler at another point (R100). -/
def State.withPhase (s : State) (p : Phase) : State := { s with phase := p }

/-- The stack after `push(w)`: the newest entry is the last (R11, R27). -/
def pushed (st : List Word) (w : Word) : List Word := st ++ [w]

/-- Fault entry, the one way a fault is taken (R237, R108): the record goes to FAULT, RUN_STATE becomes Faulted, and the tick is
aborted and returns the record. Nothing else changes: the meaning hands over the state before the instruction, so that PC is its
address and every write of the step is discarded (R13, R238). -/
def State.takeFault (f : Fault) (s : State) : State :=
  { s with runState := .faulted, fault := some f, phase := .between, lastResult := some (.fault f) }

/-- `raise` (R13): the step ends in the state fault entry leaves. -/
def raise (f : Fault) (s : State) : Host.Outcome State Fault Refusal := .next (s.takeFault f)

/-- The fault's numeric code (R230, D15). -/
def Fault.code : Fault → Nat
  | .decodeError _ _ => 1
  | .stackUnderflow _ _ => 2
  | .stackOverflow _ _ => 3
  | .memoryOutOfRange _ _ => 4

/-- The numeric code of what a host call returns, none for ok; LoadError has code 5 (R230, D15). -/
def CallResult.code : CallResult → Option Nat
  | .ok => none
  | .fault f => some f.code
  | .loadError _ => some 5

/-- reset(), which leaves Faulted as it leaves every other run state (R239, 70_reset_and_hazards.md R271). SPEED, the plane and
P_GLYPHS are unchanged, memory is P_GLYPHS and zeros again, and no port is called; no tick is running, since reset comes between
ticks (R111). -/
def State.hostReset (s : State) : State :=
  { s with
    v := Vector.replicate 16 0, i := 0, pc := BitVec.ofNat 16 Config.loadBase, stack := [], dt := 0, st := 0, mem := [],
    pause := false, pendingKey := none, fault := none, runState := .idle, phase := .between }

end Sys2Proof.Machine
end

