-- ==== Sys2Proof/Machine/Flags.lean ====
section
/-!
DEFINITION. The 8-bit results and the flag VF of the five instructions that write both (42_alu.md R140, R141, R148 to R152). Sums
and differences are computed exactly and narrowed at the end; the flag comes from the exact value (R140).
-/

namespace Sys2Proof.Machine

/-- A flag as VF's byte: 1 or 0 (10_state.md R29). -/
def flagByte (f : Bool) : Byte := if f then 1 else 0

/-- `t mod 256` of the exact sum (R140, R148). -/
def sumByte (a b : Byte) : Byte := BitVec.ofNat 8 (a.toNat + b.toNat)

/-- The carry: the exact sum is above 255 (R148). -/
def sumFlag (a b : Byte) : Bool := decide (255 < a.toNat + b.toNat)

/-- `d mod 256` of the exact difference a - b (R140, R149). -/
def diffByte (a b : Byte) : Byte := BitVec.ofInt 8 ((a.toNat : Int) - (b.toNat : Int))

/-- The exact difference a - b is strictly positive (R149, C6). -/
def diffFlag (a b : Byte) : Bool := decide (0 < (a.toNat : Int) - (b.toNat : Int))

/-- `v >> 1` (R150). -/
def shrByte (a : Byte) : Byte := a >>> 1

/-- Bit 0, the bit a right shift drops (R150). -/
def shrFlag (a : Byte) : Bool := a.getLsbD 0

/-- `(v << 1) mod 256` (R152). -/
def shlByte (a : Byte) : Byte := BitVec.ofNat 8 (a.toNat * 2)

/-- Bit 7, the bit a left shift drops (R152). -/
def shlFlag (a : Byte) : Bool := a.getLsbD 7

/-- `writeback(x, r, f)` in the order P_VF_DEST names (R141). -/
def State.writebackIn (s : State) (order : Config.VfDest) (x : Reg) (r f : Byte) : State :=
  match order with
  | .flagLast => (s.setReg x r).setReg 15 f
  | .resultLast => (s.setReg 15 f).setReg x r

/-- `writeback(x, r, f)` of this hardware (R141). The orders differ only when x = 0xF, and only then is the open parameter
consulted; `writeback_eq` in Laws/Flags.lean says that this is the order P_VF_DEST names for every x. -/
def State.writeback (s : State) (x : Reg) (r f : Byte) : State :=
  if x = 15 then s.writebackIn Config.vfDest x r f else s.writebackIn .flagLast x r f

end Sys2Proof.Machine
end

