-- ==== Sys2Proof/Machine/Plane.lean ====
section
/-!
DEFINITION. The pixel-plane port: its bits and its operations (10_state.md R36), and the calls of one sprite
(45_io.md R201, R202).
-/

namespace Sys2Proof.Machine

/-- `plane[x mod 64][y mod 32]` (R36). -/
def pixel (p : Plane) (x y : Nat) : Bool := (p[y % 32]'(Nat.mod_lt y (by decide))).getLsbD (x % 64)

/-- The plane `clear()` leaves (R36). -/
def blankPlane : Plane := Vector.replicate 32 0

/-- `set_pixel(x, y, bit)` (R36): XORs the bit into the wrap-addressed plane and answers whether a set pixel was cleared. -/
def setPixel (p : Plane) (x y : Nat) (bit : Bool) : Plane × Bool :=
  let row := p[y % 32]'(Nat.mod_lt y (by decide))
  let flip : BitVec 64 := if bit then BitVec.twoPow 64 (x % 64) else 0
  (p.set (y % 32) (row ^^^ flip) (Nat.mod_lt y (by decide)), pixel p x y && bit)

/-- One call `set_pixel(x, y, bit)`. -/
structure PixelCall where
  /-- The column, after the instruction's own mod 64 (R201). -/
  x : Nat
  /-- The row, after the instruction's own mod 32 (R201). -/
  y : Nat
  /-- The sprite's bit. -/
  bit : Bool
  deriving DecidableEq, Repr

/-- The call as an event of the port (R14). -/
def PixelCall.event (c : PixelCall) : PortEvent := .setPixel c.x c.y c.bit

/-- The calls of one sprite row, col 0 to col 7; bit 7 of the byte is col 0 (R201, R202, D24). -/
def rowCalls (px py row : Nat) (b : Byte) : List PixelCall :=
  (List.range 8).map fun col => ⟨(px + col) % 64, (py + row) % 32, b.getLsbD (7 - col)⟩

/-- The calls of a sprite, row by row from `row` on (R202). -/
def spriteCalls (px py : Nat) : Nat → List Byte → List PixelCall
  | _, [] => []
  | row, b :: bs => rowCalls px py row b ++ spriteCalls px py (row + 1) bs

/-- Makes the calls in order: the plane they leave, and whether any of them cleared a set pixel (R201). -/
def drawCalls : List PixelCall → Plane → Plane × Bool
  | [], p => (p, false)
  | c :: cs, p =>
    let first := setPixel p c.x c.y c.bit
    let others := drawCalls cs first.1
    (others.1, first.2 || others.2)

end Sys2Proof.Machine
end

