-- ==== Sys2Proof/Machine/Operands.lean ====
section
/-!
DEFINITION. The operand forms: zero-extended immediates (30_encoding.md R83), the range check of a memory access
(20_memory.md R61), the register lists, BCD digits and glyph addresses of 43_index_memory.md, the sprite of DRW
(45_io.md R201) and the key answer (R203).
-/

namespace Sys2Proof.Machine

/-- `zext_16` of the 12-bit immediate (R10, R83). -/
def zext16 (nnn : Addr12) : Word := nnn.setWidth 16

/-- The access to the `n` bytes at `a` passes 0xFFF (R61); used with n of 1 and more. -/
def outOfRange (a : Word) (n : Nat) : Bool := decide (0xFFF < a.toNat + n - 1)

/-- The lowest out-of-range address of an access from `a` that passes 0xFFF: max(a, 0x1000) (R61, D16). -/
def faultAddr (a : Word) : Word := if a.toNat < 0x1000 then 0x1000 else a

/-- `check(a, n)` before anything is written (R61, R238): MemoryOutOfRange from the state before the instruction, or `t`. -/
def State.checked (s : State) (a : Word) (n : Nat) (t : State) : Host.Outcome State Fault Refusal :=
  if outOfRange a n then raise (.memoryOutOfRange s.pc (faultAddr a)) s else .next t

/-- The three BCD digits of a byte, most significant first (R173). -/
def bcdDigits (b : Byte) : List Byte :=
  [BitVec.ofNat 8 (b.toNat / 100), BitVec.ofNat 8 (b.toNat / 10 % 10), BitVec.ofNat 8 (b.toNat % 10)]

/-- The address of the glyph of a byte: the byte times 5, unmasked (R172). -/
def glyphAddress (b : Byte) : Word := BitVec.ofNat 16 (b.toNat * 5)

/-- V0..Vx, in that order (R174). -/
def State.lowRegs (s : State) (x : Reg) : List Byte := s.v.toList.take (x.val + 1)

/-- The registers after `for i in 0..x: V[i] <- mem[I + i]` (R175). -/
def State.loadedRegs (s : State) (x : Reg) : RegFile :=
  Vector.ofFn fun r : Reg => if r.val ≤ x.val then s.byte (s.i.toNat + r.val) else s.reg r

/-- The set_pixel calls of DRW x, y, n: the `n` bytes at I drawn at (V[x], V[y]), both read before VF is cleared (R201, D12). -/
def State.drwCalls (s : State) (x y : Reg) (n : Nibble) : List PixelCall :=
  spriteCalls (s.reg x).toNat (s.reg y).toNat 0 (s.bytes s.i.toNat n.toNat)

/-- The answer to the key query for V[x]: a fresh draw (R203, D21). -/
def State.keyAnswer (s : State) (x : Reg) : Bool := Config.keyAnswer s.draws (s.reg x)

/-- The key query for V[x] made: the port call, and one draw consumed (R203, R209). -/
def State.queryKey (s : State) (x : Reg) : State := (s.emit [.isPressed (s.reg x)]).consumeDraw

end Sys2Proof.Machine
end

