-- ==== Sys2Proof/Machine/Alu.lean ====
section
/-!
DEFINITION. The meanings of the ALU instructions (42_alu.md). None accesses memory or raises a fault. Every operand is read from
the state before the instruction (00_scope.md R15).
-/

namespace Sys2Proof.Machine

/-- LD_Vx_BYTE: `V[x] <- kk` (R142). -/
def execLdVxByte (x : Reg) (kk : Byte) (s : State) : Host.Outcome State Fault Refusal :=
  .next (s.advance.setReg x kk)

/-- ADD_Vx_BYTE: `V[x] <- (V[x] + kk) mod 256`, VF not written as a flag (R143). -/
def execAddVxByte (x : Reg) (kk : Byte) (s : State) : Host.Outcome State Fault Refusal :=
  .next (s.advance.setReg x (sumByte (s.reg x) kk))

/-- LD_Vx_Vy: `V[x] <- V[y]` (R144). -/
def execLdVxVy (x y : Reg) (s : State) : Host.Outcome State Fault Refusal :=
  .next (s.advance.setReg x (s.reg y))

/-- OR: `V[x] <- V[x] | V[y]`, VF not written as a flag (R145). -/
def execOrVxVy (x y : Reg) (s : State) : Host.Outcome State Fault Refusal :=
  .next (s.advance.setReg x (s.reg x ||| s.reg y))

/-- AND: `V[x] <- V[x] & V[y]`, VF not written as a flag (R146). -/
def execAndVxVy (x y : Reg) (s : State) : Host.Outcome State Fault Refusal :=
  .next (s.advance.setReg x (s.reg x &&& s.reg y))

/-- XOR: `V[x] <- V[x] ^ V[y]`, VF not written as a flag (R147). -/
def execXorVxVy (x y : Reg) (s : State) : Host.Outcome State Fault Refusal :=
  .next (s.advance.setReg x (s.reg x ^^^ s.reg y))

/-- ADD_Vx_Vy: the sum mod 256, VF the carry (R148). -/
def execAddVxVy (x y : Reg) (s : State) : Host.Outcome State Fault Refusal :=
  .next (s.advance.writeback x (sumByte (s.reg x) (s.reg y)) (flagByte (sumFlag (s.reg x) (s.reg y))))

/-- SUB_Vx_Vy: V[x] - V[y] mod 256, VF 1 exactly when the difference is strictly positive (R149). -/
def execSubVxVy (x y : Reg) (s : State) : Host.Outcome State Fault Refusal :=
  .next (s.advance.writeback x (diffByte (s.reg x) (s.reg y)) (flagByte (diffFlag (s.reg x) (s.reg y))))

/-- SHR: `V[x] >> 1`, VF the bit shifted out; y is ignored (R150, 30_encoding.md R93). -/
def execShr (x _y : Reg) (s : State) : Host.Outcome State Fault Refusal :=
  .next (s.advance.writeback x (shrByte (s.reg x)) (flagByte (shrFlag (s.reg x))))

/-- SUBN: V[y] - V[x] mod 256, VF 1 exactly when the difference is strictly positive (R151). -/
def execSubn (x y : Reg) (s : State) : Host.Outcome State Fault Refusal :=
  .next (s.advance.writeback x (diffByte (s.reg y) (s.reg x)) (flagByte (diffFlag (s.reg y) (s.reg x))))

/-- SHL: `(V[x] << 1) mod 256`, VF the bit shifted out; y is ignored (R152, R93). -/
def execShl (x _y : Reg) (s : State) : Host.Outcome State Fault Refusal :=
  .next (s.advance.writeback x (shlByte (s.reg x)) (flagByte (shlFlag (s.reg x))))

/-- RND on a given draw: `V[x] <- b & kk` (R153). -/
def State.rndWith (s : State) (b : Byte) (x : Reg) (kk : Byte) : State := (s.advance.setReg x (b &&& kk)).consumeDraw

/-- RND: the draw is the run's next random byte (R153, R8). -/
def execRnd (x : Reg) (kk : Byte) (s : State) : Host.Outcome State Fault Refusal :=
  .next (s.rndWith (Config.randomByte s.draws) x kk)

end Sys2Proof.Machine
end

