-- ==== Sys2Proof/Machine/ControlFlow.lean ====
section
/-!
DEFINITION. The meanings of the control-flow instructions (41_control_flow.md). The state a meaning takes is the one before the
instruction, PC its address `a`; the meaning makes the fetch stage's +2 itself (40_cycle.md R105, log entry 14).
-/

namespace Sys2Proof.Machine

/-- RET: `if |STACK| = 0 then raise StackUnderflow(pc = a, depth = 0); PC <- pop()` (R120). -/
def execRet (s : State) : Host.Outcome State Fault Refusal :=
  match s.stack.getLast? with
  | none => raise (.stackUnderflow s.pc 0) s
  | some top => .next ((s.setStack s.stack.dropLast).jump top)

/-- JP_ADDR: `PC <- zext_16(nnn)` (R121). -/
def execJpAddr (nnn : Addr12) (s : State) : Host.Outcome State Fault Refusal := .next (s.jump (zext16 nnn))

/-- CALL_ADDR: `if |STACK| = 16 then raise StackOverflow(pc = a, depth = 16); push(PC); PC <- zext_16(nnn)`, the pushed PC
being a + 2 (R122). -/
def execCallAddr (nnn : Addr12) (s : State) : Host.Outcome State Fault Refusal :=
  if s.stack.length = Config.stackDepth then raise (.stackOverflow s.pc Config.stackDepth) s
  else .next ((s.setStack (pushed s.stack (s.pc + 2))).jump (zext16 nnn))

/-- SE_Vx_BYTE: `if V[x] = kk then PC <- PC + 2` (R123). -/
def execSeVxByte (x : Reg) (kk : Byte) (s : State) : Host.Outcome State Fault Refusal :=
  .next (s.skip (decide (s.reg x = kk)))

/-- SNE_Vx_BYTE: `if V[x] != kk then PC <- PC + 2` (R124). -/
def execSneVxByte (x : Reg) (kk : Byte) (s : State) : Host.Outcome State Fault Refusal :=
  .next (s.skip (decide (s.reg x ≠ kk)))

/-- SE_Vx_Vy: `if V[x] = V[y] then PC <- PC + 2` (R125). -/
def execSeVxVy (x y : Reg) (s : State) : Host.Outcome State Fault Refusal :=
  .next (s.skip (decide (s.reg x = s.reg y)))

/-- SNE_Vx_Vy: `if V[x] != V[y] then PC <- PC + 2` (R126). -/
def execSneVxVy (x y : Reg) (s : State) : Host.Outcome State Fault Refusal :=
  .next (s.skip (decide (s.reg x ≠ s.reg y)))

/-- JP_V0_ADDR: `PC <- zext_16(nnn) + zext_16(V[0])`, at most 0x10FE, so no wrap (R127). -/
def execJpV0Addr (nnn : Addr12) (s : State) : Host.Outcome State Fault Refusal :=
  .next (s.jump (BitVec.ofNat 16 (nnn.toNat + (s.reg 0).toNat)))

end Sys2Proof.Machine
end

