-- ==== Sys2Proof/Machine/IndexMemory.lean ====
section
/-!
DEFINITION. The meanings of the index-register and memory-transfer instructions (43_index_memory.md). Each checks its whole
memory range before it writes anything (R61, R238), and none changes I as a side effect of an access (R176).
-/

namespace Sys2Proof.Machine

/-- LD_I_ADDR: `I <- zext_16(nnn)` (R170). -/
def execLdIAddr (nnn : Addr12) (s : State) : Host.Outcome State Fault Refusal :=
  .next (s.advance.setI (zext16 nnn))

/-- ADD_I_Vx: `I <- (I + V[x]) mod 65536`, VF not written (R171). -/
def execAddIVx (x : Reg) (s : State) : Host.Outcome State Fault Refusal :=
  .next (s.advance.setI (BitVec.ofNat 16 (s.i.toNat + (s.reg x).toNat)))

/-- LD_F_Vx: `I <- zext_16(V[x]) * 5` (R172). -/
def execLdFVx (x : Reg) (s : State) : Host.Outcome State Fault Refusal :=
  .next (s.advance.setI (glyphAddress (s.reg x)))

/-- LD_B_Vx: the three BCD digits of V[x] at I, I+1, I+2 (R173). -/
def execLdBVx (x : Reg) (s : State) : Host.Outcome State Fault Refusal :=
  s.checked s.i 3 (s.advance.store s.i.toNat (bcdDigits (s.reg x)))

/-- LD_I_Vx: `for i in 0..x: mem[I + i] <- V[i]` (R174). -/
def execLdIVx (x : Reg) (s : State) : Host.Outcome State Fault Refusal :=
  s.checked s.i (x.val + 1) (s.advance.store s.i.toNat (s.lowRegs x))

/-- LD_Vx_I: `for i in 0..x: V[i] <- mem[I + i]` (R175). -/
def execLdVxI (x : Reg) (s : State) : Host.Outcome State Fault Refusal :=
  s.checked s.i (x.val + 1) (s.advance.setRegs (s.loadedRegs x))

end Sys2Proof.Machine
end

