-- ==== Sys2Proof/Machine/Io.lean ====
section
/-!
DEFINITION. The meanings of the display, key and wait instructions (45_io.md), the only ones that call a port (R209), and the
key-press event (R207).
-/

namespace Sys2Proof.Machine

/-- CLS: `plane.clear()` (R200). -/
def execCls (s : State) : Host.Outcome State Fault Refusal :=
  .next ((s.advance.setPlane blankPlane).emit [.clear])

/-- DRW after its range check: the calls made on the plane, in order, and VF the collision (R201, R202). -/
def State.drawn (s : State) (x y : Reg) (n : Nibble) : State :=
  let calls := s.drwCalls x y n
  let result := drawCalls calls s.plane
  ((s.advance.setPlane result.1).setReg 15 (flagByte result.2)).emit (calls.map PixelCall.event)

/-- DRW: the range of the sprite is checked only when n > 0 (R201). -/
def execDrw (x y : Reg) (n : Nibble) (s : State) : Host.Outcome State Fault Refusal :=
  if n = 0 then .next (s.drawn x y n) else s.checked s.i n.toNat (s.drawn x y n)

/-- SKP_Vx on a given answer: the query, then `if p then PC <- PC + 2` (R204). -/
def State.skpWith (s : State) (p : Bool) (x : Reg) : State := (s.queryKey x).skip p

/-- SKP_Vx: the answer is the run's next draw (R203, R204). -/
def execSkpVx (x : Reg) (s : State) : Host.Outcome State Fault Refusal := .next (s.skpWith (s.keyAnswer x) x)

/-- SKNP_Vx on a given answer: the query, then `if not p then PC <- PC + 2` (R205). -/
def State.sknpWith (s : State) (p : Bool) (x : Reg) : State := (s.queryKey x).skip (!p)

/-- SKNP_Vx: the answer is the run's next draw (R203, R205). -/
def execSknpVx (x : Reg) (s : State) : Host.Outcome State Fault Refusal := .next (s.sknpWith (s.keyAnswer x) x)

/-- LD_Vx_K: `PAUSE <- true; PENDING_KEY <- x`, with the registration at the key port; V[x] is not written (R206, R209). -/
def execLdVxK (x : Reg) (s : State) : Host.Outcome State Fault Refusal :=
  .next ((s.advance.awaitKey x).emit [.onNextKeyPress x])

/-- The key-press event: it completes a pending LD_Vx_K, and without one it has no effect (R207). -/
def State.keyPress (s : State) (k : Key) : State :=
  match s.pendingKey with
  | some t => { s.setReg t (BitVec.ofNat 8 k.val) with pendingKey := none, pause := false }
  | none => s

end Sys2Proof.Machine
end

