-- ==== Sys2Proof/Machine/Timers.lean ====
section
/-!
DEFINITION. The meanings of the timer instructions (44_timers.md) and the timer stage of a tick (60_exceptions.md R243).
-/

namespace Sys2Proof.Machine

/-- LD_Vx_DT: `V[x] <- DT` (R185). -/
def execLdVxDt (x : Reg) (s : State) : Host.Outcome State Fault Refusal :=
  .next (s.advance.setReg x s.dt)

/-- LD_DT_Vx: `DT <- V[x]` (R186). -/
def execLdDtVx (x : Reg) (s : State) : Host.Outcome State Fault Refusal :=
  .next (s.advance.setDt (s.reg x))

/-- LD_ST_Vx: `ST <- V[x]` (R187). -/
def execLdStVx (x : Reg) (s : State) : Host.Outcome State Fault Refusal :=
  .next (s.advance.setSt (s.reg x))

/-- One timer after the timer stage: down by 1, floored at 0 (R243). -/
def countDown (b : Byte) : Byte := if 0 < b.toNat then b - 1 else b

/-- The timer stage (R243). -/
def State.timerStage (s : State) : State := (s.setDt (countDown s.dt)).setSt (countDown s.st)

end Sys2Proof.Machine
end

