-- ==== Sys2Proof/Machine/Cycle.lean ====
section
/-!
DEFINITION. The fetch-decode-execute slot, the beginning and the closing stages of a tick, the host's calls, and the atomic tick
of the spec (40_cycle.md, 60_exceptions.md R243 to R245, 70_reset_and_hazards.md R271 to R276).
-/

namespace Sys2Proof.Machine

/-- The spec's step() of R102: fetch range check, fetch, decode, then the instruction, its +2 included. The checks come in the
order of R236. -/
def runInstr (s : State) : Host.Outcome State Fault Refusal :=
  if outOfRange s.pc 2 then raise (.memoryOutOfRange s.pc (faultAddr s.pc)) s
  else
    match decode (s.wordAt s.pc.toNat) with
    | .error _ => raise (.decodeError (s.wordAt s.pc.toNat) s.pc) s
    | .ok i => exec i s

/-- One slot, after which `left` slots of the tick remain: nothing happens in it while PAUSE is true (R101). -/
def slot (left : Nat) (s : State) : Host.Outcome State Fault Refusal :=
  if s.pause then .next (s.withPhase (.slots left)) else runInstr (s.withPhase (.slots left))

/-- The tone stage: start() while ST > 0, else stop() (R245). -/
def State.toneStage (s : State) : State := s.emit [if 0 < s.st.toNat then .toneStart else .toneStop]

/-- The closing stages of a tick that did not fault, in order: timers, tone, present; tick returns ok (R107). -/
def State.closeTick (s : State) : State :=
  { s.timerStage.toneStage.emit [.present] with phase := .between, lastResult := some .ok }

/-- What tick() returns when no slot runs: the stored record in Faulted, else ok (R110). -/
def State.storedResult (s : State) : CallResult :=
  match s.fault with
  | some f => .fault f
  | none => .ok

/-- The beginning of tick(): in Idle and in Faulted it is also the end (R110), in Ready the slots follow (R100). -/
def State.beginTick (s : State) : State :=
  match s.runState with
  | .idle => { s with lastResult := some .ok }
  | .faulted => { s with lastResult := some s.storedResult }
  | .ready => s.withPhase (.slots s.speed)

/-- load(program): LoadError and no change when it does not fit, else reset, the copy to 0x200, and Ready (R274 to R276). -/
def State.load (s : State) (p : List Byte) : State :=
  if programFits p then
    { s.hostReset.store Config.loadBase p with runState := .ready, lastResult := some .ok }
  else { s with lastResult := some (.loadError p.length) }

/-- One host transition (R35, R113). reset, set_speed and the key-press event return nothing. -/
def State.perform (s : State) : HostCall → State
  | .load p => s.load p
  | .tick => s.beginTick
  | .reset => { s.hostReset with lastResult := none }
  | .setSpeed n => { s with speed := n, lastResult := none }
  | .keyPress k => { s.keyPress k with lastResult := none }

/-- Between ticks: the next host call of the script is performed; once the script is empty the driver only ticks (R111, R114;
DESIGN CHOICE, log entry 9). -/
def State.hostTurn (s : State) : State :=
  match s.script with
  | [] => s.perform .tick
  | c :: rest => { s with script := rest }.perform c

/-- The `for` loop of R100 for `n` slots and the stages after it, as one atomic procedure. A slot that faults ends the tick at
once (R108). -/
def tickSlots : Nat → State → Host.Outcome State Fault Refusal
  | 0, s => .next s.closeTick
  | n + 1, s =>
    if s.pause then tickSlots n (s.withPhase (.slots n))
    else
      match runInstr (s.withPhase (.slots n)) with
      | .next t => if t.runState = .faulted then .next t else tickSlots n t
      | .fault f => .fault f
      | .refused r => .refused r

/-- tick() of R100, as one atomic procedure of the host's view. `step` runs it a slot at a time; Laws and the obligations relate
the two. -/
def State.tick (s : State) : Host.Outcome State Fault Refusal :=
  match s.runState with
  | .idle => .next s.beginTick
  | .faulted => .next s.beginTick
  | .ready => tickSlots s.speed s.beginTick

end Sys2Proof.Machine
end

