-- ==== Sys2Proof/Machine/Step.lean ====
section
/-!
DEFINITION. One step of the machine: between ticks a host transition, inside a tick one slot, and after the last slot the closing
stages (40_cycle.md R100, R107, R111; log entry 8). It only calls the operations of Machine/Cycle.lean.
-/

namespace Sys2Proof.Machine

/-- One step. -/
def step (s : State) : Host.Outcome State Fault Refusal :=
  match s.phase with
  | .between => .next s.hostTurn
  | .slots 0 => .next s.closeTick
  | .slots (left + 1) => slot left s

/-- The state with a slot to run: a loaded program (Ready, no fault, no pause) and a tick that has at least one slot left. -/
def State.readyToFetch (s : State) : State :=
  { s with
    runState := .ready, fault := none, pause := false, pendingKey := none
    phase := match s.phase with
      | .slots (left + 1) => .slots (left + 1)
      | _ => .slots (max 1 s.speed)
    pc := if outOfRange s.pc 2 then BitVec.ofNat 16 Config.loadBase else s.pc }

/-- The state with the table row's word stored at PC, high byte first, so that the next step runs it. It stands for the host's
load of a program and the beginning of a tick (log entry 10). -/
def State.withFetchWord (s : State) (nbits w : Nat) : State :=
  let word := BitVec.ofNat 16 (w % 2 ^ nbits)
  let t := s.readyToFetch
  t.store t.pc.toNat [highByte word, lowByte word]

end Sys2Proof.Machine
end

