-- ==== Sys2Proof/Safety.lean ====
section
/-!
DEFINITION. The terms in which claims about the machine are made: the invariant (10_state.md R39), what taking a fault looks like
(60_exceptions.md R237, R238), the frames of register-writing instructions, and which state each instruction may write
(R23, R24, R27, R28, R36, R65, R209).
-/

namespace Sys2Proof.Machine

/-- What every transition preserves: R39 (a) to (e), the canonical form of memory, that a tick runs only in Ready (R100), and
the bounds of PC and of the stacked return addresses (R26, 41_control_flow.md R122). -/
structure State.Inv (s : State) : Prop where
  /-- Memory is in canonical form. -/
  memWf : Memory.wf s.glyphs s.mem = true
  /-- R39 (a). -/
  pauseIffPending : s.pause = true ↔ s.pendingKey ≠ none
  /-- R39 (b). -/
  stackDepth : s.stack.length ≤ 16
  /-- R39 (c). -/
  faultedIffFault : s.runState = .faulted ↔ s.fault ≠ none
  /-- R39 (d). -/
  idleIsReset : s.runState = .idle →
    s.pause = false ∧ s.stack = [] ∧ (∀ r, s.reg r = 0) ∧ s.i = 0 ∧ s.pc = 0x200 ∧ s.dt = 0 ∧ s.st = 0
  /-- R39 (e): a fault occurs only while PAUSE = false, and PAUSE stays so. -/
  faultedNotPaused : s.runState = .faulted → s.pause = false
  /-- A tick has slots only in Ready (R100). -/
  tickIsReady : s.phase ≠ .between → s.runState = .ready
  /-- The largest value a rule can write to PC is 0x10FE (R26). -/
  pcBound : s.pc.toNat ≤ 0x10FE
  /-- The largest pushed return address is 0x1000, from a CALL at 0xFFE (R122). -/
  stackBound : ∀ w ∈ s.stack, w.toNat ≤ 0x1000

/-- The outcome is fault entry from `s` with record `f` and nothing else: FAULT, RUN_STATE, the tick ended and its result
(R237, R108); PC, the registers, memory, the plane and the port history are those of `s` (R238). -/
def EntersFault (o : Host.Outcome State Fault Refusal) (s : State) (f : Fault) : Prop :=
  o = .next { s with runState := .faulted, fault := some f, phase := .between, lastResult := some (.fault f) }

/-- From `s` to `t`, PC is advanced by 2 and at most registers change. -/
def OnlyRegs (s t : State) : Prop := t = { s with pc := s.pc + 2, v := t.v }

/-- From `s` to `t`, V[x] becomes `b`, PC is advanced by 2, and nothing else changes. -/
def WritesReg (s t : State) (x : Reg) (b : Byte) : Prop :=
  t.reg x = b ∧ (∀ r, r ≠ x → t.reg r = s.reg r) ∧ OnlyRegs s t

/-- From `s` to `t`, V[x] and VF are written with result `r` and flag `f` in the order of P_VF_DEST (R141), PC is advanced by 2,
and nothing else changes. -/
def WritesRegAndFlag (s t : State) (x : Reg) (r f : Byte) : Prop :=
  (x ≠ 15 → t.reg x = r ∧ t.reg 15 = f) ∧
  (x = 15 → t.reg 15 = match Config.vfDest with | .flagLast => f | .resultLast => r) ∧
  (∀ q, q ≠ x → q ≠ 15 → t.reg q = s.reg q) ∧ OnlyRegs s t

/-- Every byte of memory outside the `n` bytes at `a` reads in `t` as in `s`. -/
def SameBytesOutside (a n : Nat) (s t : State) : Prop :=
  ∀ b, (b < a ∨ a + n ≤ b) → t.byte b = s.byte b

/-- The registers an instruction may write in its own step (R23, R29). -/
def writesRegister : Instr → Reg → Bool
  | .ldVxByte x _, r | .addVxByte x _, r | .rnd x _, r | .ldVxDt x, r => r == x
  | .ldVxVy x _, r | .orVxVy x _, r | .andVxVy x _, r | .xorVxVy x _, r => r == x
  | .addVxVy x _, r | .subVxVy x _, r | .shr x _, r | .subn x _, r | .shl x _, r => r == x || r == 15
  | .drw _ _ _, r => r == 15
  | .ldVxI x, r => decide (r.val ≤ x.val)
  | .cls, _ | .ret, _ | .jpAddr _, _ | .callAddr _, _ | .seVxByte _ _, _ | .sneVxByte _ _, _ => false
  | .seVxVy _ _, _ | .sneVxVy _ _, _ | .ldIAddr _, _ | .jpV0Addr _, _ | .skpVx _, _ | .sknpVx _, _ => false
  | .ldVxK _, _ | .ldDtVx _, _ | .ldStVx _, _ | .addIVx _, _ | .ldFVx _, _ | .ldBVx _, _ | .ldIVx _, _ => false

/-- How many bytes from I on an instruction may write (R65). -/
def storedBytes : Instr → Nat
  | .ldBVx _ => 3
  | .ldIVx x => x.val + 1
  | .cls | .ret | .jpAddr _ | .callAddr _ | .seVxByte _ _ | .sneVxByte _ _ | .seVxVy _ _ | .ldVxByte _ _ => 0
  | .addVxByte _ _ | .ldVxVy _ _ | .orVxVy _ _ | .andVxVy _ _ | .xorVxVy _ _ | .addVxVy _ _ | .subVxVy _ _ => 0
  | .shr _ _ | .subn _ _ | .shl _ _ | .sneVxVy _ _ | .ldIAddr _ | .jpV0Addr _ | .rnd _ _ | .drw _ _ _ => 0
  | .skpVx _ | .sknpVx _ | .ldVxDt _ | .ldVxK _ | .ldDtVx _ | .ldStVx _ | .addIVx _ | .ldFVx _ | .ldVxI _ => 0

/-- The bit the sprite of DRW x, y, n puts at the plane's pixel (px, py), px < 64 and py < 32: false outside the sprite, which
wraps on both axes; the first row is at V[y], the leftmost column, bit 7, at V[x] (R201). -/
def spriteBit (s : State) (x y : Reg) (n : Nibble) (px py : Nat) : Bool :=
  let col := (px + 256 - (s.reg x).toNat) % 64
  let row := (py + 256 - (s.reg y).toNat) % 32
  decide (col < 8) && decide (row < n.toNat) && (s.byte (s.i.toNat + row)).getLsbD (7 - col)

end Sys2Proof.Machine
end

