-- ==== Sys2Proof/Certificates/Slice0/Obligations.lean ====
section
/-!
DEFINITION. What is claimed of the machine, for the provers: one definition per statement, listed in OBLIGATIONS.json. Each
docstring names the rules of spec/ it rests on; where a clause rests on a choice of the model it says so and names the log entry.
-/

open Sys2Proof Sys2Proof.Machine

/-! ## Encoding and decoding (30_encoding.md) -/

/-- R99: the source's decode example. -/
def Obligations.SourceDecodeExample : Prop :=
  fieldsOf 0x3AB2#16 = { op := 0x3, x := 0xA, y := 0xB, n := 0x2, kk := 0xB2, nnn := 0xAB2 } ∧
  decode 0x3AB2#16 = .ok (.seVxByte 0xA 0xB2) ∧
  opcodeTable[4]? = some (Instr.row (.seVxByte 0xA 0xB2)) ∧
  (Instr.row (.seVxByte 0xA 0xB2)).matchesWord 0x3AB2#16 = true

/-- R84 to R91: words of every family written out from the patterns, and words that are rejected. -/
def Obligations.SampleWordsDecode : Prop :=
  decode 0x2ABC#16 = .ok (.callAddr 0xABC) ∧ decode 0xB123#16 = .ok (.jpV0Addr 0x123) ∧
  decode 0x5120#16 = .ok (.seVxVy 1 2) ∧ decode 0x812E#16 = .ok (.shl 1 2) ∧
  decode 0x7FFF#16 = .ok (.addVxByte 0xF 0xFF) ∧ decode 0xFA33#16 = .ok (.ldBVx 0xA) ∧
  decode 0xF415#16 = .ok (.ldDtVx 4) ∧ decode 0xD12F#16 = .ok (.drw 1 2 0xF) ∧ decode 0xE19E#16 = .ok (.skpVx 1) ∧
  decode 0x0123#16 = .error (.decodeError 0x0123) ∧ decode 0x5121#16 = .error (.decodeError 0x5121) ∧
  decode 0x8008#16 = .error (.decodeError 0x8008) ∧ decode 0xE19F#16 = .error (.decodeError 0xE19F) ∧
  decode 0xF100#16 = .error (.decodeError 0xF100)

/-- Decoding the word of an instruction gives the instruction back, every operand at every value (R81, R84). Every term of Instr
is well-formed. -/
def Obligations.DecodeOfEncode : Prop :=
  ∀ i : Instr, i.wellFormed = true ∧ decode (encode i) = .ok i

/-- No two words decode to one instruction: a legal word is the word of the instruction it decodes to (R84, R91). -/
def Obligations.EncodeOfDecode : Prop :=
  ∀ (w : Word) (i : Instr), decode w = .ok i → encode i = w

/-- The decoder follows the table of R84: it gives an instruction exactly for the words that match its row of the table, and
rejects, by the word itself, exactly the words that match no row (R91). -/
def Obligations.DecodeFollowsTable : Prop :=
  (∀ (w : Word) (i : Instr), decode w = .ok i → i.row ∈ opcodeTable ∧ i.row.matchesWord w = true) ∧
  (∀ (w : Word) (e : DecodeReject), decode w = .error e → e = .decodeError w ∧ ∀ r ∈ opcodeTable, r.matchesWord w = false)

/-- Exactly one tag matches any well-formed word: no word matches two of the 34 rows (R84). -/
def Obligations.TableRowsDisjoint : Prop :=
  opcodeTable.length = 34 ∧
  ∀ (w : Word), ∀ r ∈ opcodeTable, ∀ q ∈ opcodeTable, r.matchesWord w = true → q.matchesWord w = true → r = q

/-! ## The fetch-decode-execute slot (40_cycle.md) -/

/-- R62: the byte at the lower address is the more significant half of the fetched word. -/
def Obligations.FetchIsBigEndian : Prop :=
  ∀ (s : State) (a : Nat),
    (s.wordAt a).toNat = (s.byte a).toNat * 256 + (s.byte (a + 1)).toNat ∧
    (s.wordAt a).extractLsb' 8 8 = s.byte a ∧ (s.wordAt a).extractLsb' 0 8 = s.byte (a + 1)

/-- R102, R105: in a tick with a slot left and no pause, when the word at PC decodes to an instruction, the step is exec of that
instruction at that state with one slot used; the +2 of the fetch stage is the meaning's (log entry 14). -/
def Obligations.StepRunsDecodedInstruction : Prop :=
  ∀ (s : State) (n : Nat) (i : Instr), s.phase = .slots (n + 1) → s.pause = false → s.pc.toNat + 1 ≤ 0xFFF →
    decode (wordOfBytes (s.byte s.pc.toNat) (s.byte (s.pc.toNat + 1))) = .ok i →
    step s = exec i { s with phase := .slots n }

/-- R102, R61: a fetch whose second byte lies above 0xFFF raises MemoryOutOfRange, whatever memory holds. -/
def Obligations.FetchRangeFaults : Prop :=
  ∀ (s : State) (n : Nat), s.phase = .slots (n + 1) → s.pause = false → 0xFFF < s.pc.toNat + 1 →
    EntersFault (step s) s (.memoryOutOfRange s.pc (BitVec.ofNat 16 (max s.pc.toNat 0x1000)))

/-- R104: a word that matches no row raises DecodeError with the word and its address. -/
def Obligations.IllegalWordFaults : Prop :=
  ∀ (s : State) (n : Nat), s.phase = .slots (n + 1) → s.pause = false → s.pc.toNat + 1 ≤ 0xFFF →
    legalWord (s.wordAt s.pc.toNat) = false →
    EntersFault (step s) s (.decodeError (s.wordAt s.pc.toNat) s.pc)

/-- R101, R32, R244: while PAUSE is true the slots left in a tick are used up and change nothing, and the tick still makes its
closing stages, after which PC, registers, memory and the pause are as before. -/
def Obligations.PausedTickOnlyCloses : Prop :=
  ∀ (n : Nat) (s : State), s.phase = .slots n → s.pause = true →
    Host.Core.run core n s = .next { s with phase := .slots 0 } ∧
    ∃ t, Host.Core.run core (n + 1) s = .next t ∧ t.dt.toNat = s.dt.toNat - 1 ∧ t.st.toNat = s.st.toNat - 1 ∧
      t = { s with
        dt := t.dt, st := t.st, phase := .between, lastResult := some .ok
        history := .present :: (if 1 < s.st.toNat then .toneStart else .toneStop) :: s.history }

/-- R73, R280: a word that LD_I_Vx stores just where the next slot fetches is the one that slot runs, with no fence. -/
def Obligations.StoredCodeIsRun : Prop :=
  ∀ (s : State) (n : Nat) (x : Reg) (i : Instr), s.phase = .slots (n + 1) → s.pause = false →
    s.i.toNat + x.val ≤ 0xFFF → 1 ≤ x.val → s.pc.toNat + 2 = s.i.toNat →
    decode (wordOfBytes (s.reg 0) (s.reg 1)) = .ok i →
    ∃ t, exec (.ldIVx x) s = .next t ∧ step t = exec i { t with phase := .slots n }

/-! ## Control flow (41_control_flow.md) -/

/-- R120: RET pops the newest entry into PC, and an empty stack raises StackUnderflow. -/
def Obligations.ReturnPops : Prop :=
  decode 0x00EE#16 = .ok .ret ∧
  (∀ (s : State) (rest : List Word) (w : Word), s.stack = rest ++ [w] →
    exec .ret s = .next { s with pc := w, stack := rest }) ∧
  (∀ s : State, s.stack = [] → EntersFault (exec .ret s) s (.stackUnderflow s.pc 0))

/-- R121: JP_ADDR loads nnn into PC and changes nothing else. -/
def Obligations.JumpSetsPc : Prop :=
  ∀ (nnn : Addr12) (s : State), decode (encodeNnn 0x1 nnn) = .ok (.jpAddr nnn) ∧
    ∃ t, exec (.jpAddr nnn) s = .next t ∧ t.pc.toNat = nnn.toNat ∧ t = { s with pc := t.pc }

/-- R122: CALL_ADDR pushes the address after the call and jumps to nnn; with 16 frames held it raises StackOverflow. -/
def Obligations.CallPushes : Prop :=
  ∀ (nnn : Addr12) (s : State), decode (encodeNnn 0x2 nnn) = .ok (.callAddr nnn) ∧
    (s.stack.length ≠ 16 → ∃ t, exec (.callAddr nnn) s = .next t ∧ t.pc.toNat = nnn.toNat ∧
      t = { s with pc := t.pc, stack := s.stack ++ [s.pc + 2] }) ∧
    (s.stack.length = 16 → EntersFault (exec (.callAddr nnn) s) s (.stackOverflow s.pc 16))

/-- R120, R122 and the source's round trip: CALL_ADDR and then RET restore PC to the instruction after the call, and the stack. -/
def Obligations.CallThenReturn : Prop :=
  ∀ (nnn : Addr12) (s : State), s.stack.length < 16 →
    ∃ t, exec (.callAddr nnn) s = .next t ∧ exec .ret t = .next { s with pc := s.pc + 2 }

/-- R123, R124: the byte skips leave PC at a + 4 when their condition holds and at a + 2 when it fails. -/
def Obligations.SkipOnByte : Prop :=
  ∀ (x : Reg) (kk : Byte) (s : State),
    decode (encodeXkk 0x3 x kk) = .ok (.seVxByte x kk) ∧ decode (encodeXkk 0x4 x kk) = .ok (.sneVxByte x kk) ∧
    exec (.seVxByte x kk) s = .next { s with pc := if s.reg x = kk then s.pc + 4 else s.pc + 2 } ∧
    exec (.sneVxByte x kk) s = .next { s with pc := if s.reg x = kk then s.pc + 2 else s.pc + 4 }

/-- R125, R126: the register skips; with x = y the first always skips and the second never does. -/
def Obligations.SkipOnRegisters : Prop :=
  ∀ (x y : Reg) (s : State),
    decode (encodeXyn 0x5 x y 0) = .ok (.seVxVy x y) ∧ decode (encodeXyn 0x9 x y 0) = .ok (.sneVxVy x y) ∧
    exec (.seVxVy x y) s = .next { s with pc := if s.reg x = s.reg y then s.pc + 4 else s.pc + 2 } ∧
    exec (.sneVxVy x y) s = .next { s with pc := if s.reg x = s.reg y then s.pc + 2 else s.pc + 4 } ∧
    exec (.seVxVy x x) s = .next { s with pc := s.pc + 4 } ∧ exec (.sneVxVy x x) s = .next { s with pc := s.pc + 2 }

/-- R127: JP_V0_ADDR loads nnn + V0 into PC without wrapping, at most 0x10FE, and changes nothing else. -/
def Obligations.JumpPlusV0 : Prop :=
  ∀ (nnn : Addr12) (s : State), decode (encodeNnn 0xB nnn) = .ok (.jpV0Addr nnn) ∧
    ∃ t, exec (.jpV0Addr nnn) s = .next t ∧ t.pc.toNat = nnn.toNat + (s.reg 0).toNat ∧ t.pc.toNat ≤ 0x10FE ∧
      t = { s with pc := t.pc }

/-! ## ALU (42_alu.md) -/

/-- R142, R144: the byte and register loads write V[x], and nothing else but PC changes. -/
def Obligations.RegisterLoads : Prop :=
  ∀ (x y : Reg) (kk : Byte) (s : State),
    decode (encodeXkk 0x6 x kk) = .ok (.ldVxByte x kk) ∧ decode (encodeXyn 0x8 x y 0x0) = .ok (.ldVxVy x y) ∧
    (∃ t, exec (.ldVxByte x kk) s = .next t ∧ WritesReg s t x kk) ∧
    (∃ t, exec (.ldVxVy x y) s = .next t ∧ WritesReg s t x (s.reg y))

/-- R143: ADD_Vx_BYTE adds modulo 256 and writes no flag: VF changes only as V[x] with x = 0xF. -/
def Obligations.AddByteWithoutFlag : Prop :=
  ∀ (x : Reg) (kk : Byte) (s : State), decode (encodeXkk 0x7 x kk) = .ok (.addVxByte x kk) ∧
    ∃ t b, exec (.addVxByte x kk) s = .next t ∧ WritesReg s t x b ∧
      b.toNat = ((s.reg x).toNat + kk.toNat) % 256

/-- R145, R146, R147: the logic operations, bit by bit, with no flag. -/
def Obligations.LogicOperations : Prop :=
  ∀ (x y : Reg) (s : State),
    decode (encodeXyn 0x8 x y 0x1) = .ok (.orVxVy x y) ∧ decode (encodeXyn 0x8 x y 0x2) = .ok (.andVxVy x y) ∧
    decode (encodeXyn 0x8 x y 0x3) = .ok (.xorVxVy x y) ∧
    (∃ t b, exec (.orVxVy x y) s = .next t ∧ WritesReg s t x b ∧
      ∀ k, k < 8 → b.getLsbD k = ((s.reg x).getLsbD k || (s.reg y).getLsbD k)) ∧
    (∃ t b, exec (.andVxVy x y) s = .next t ∧ WritesReg s t x b ∧
      ∀ k, k < 8 → b.getLsbD k = ((s.reg x).getLsbD k && (s.reg y).getLsbD k)) ∧
    (∃ t b, exec (.xorVxVy x y) s = .next t ∧ WritesReg s t x b ∧
      ∀ k, k < 8 → b.getLsbD k = ((s.reg x).getLsbD k ^^ (s.reg y).getLsbD k))

/-- R148, R141: ADD_Vx_Vy writes the sum modulo 256 and the carry; with x = 0xF, VF ends as the open parameter says. -/
def Obligations.AddWithCarry : Prop :=
  ∀ (x y : Reg) (s : State), decode (encodeXyn 0x8 x y 0x4) = .ok (.addVxVy x y) ∧
    ∃ t b, exec (.addVxVy x y) s = .next t ∧ b.toNat = ((s.reg x).toNat + (s.reg y).toNat) % 256 ∧
      WritesRegAndFlag s t x b (if (s.reg x).toNat + (s.reg y).toNat > 255 then 1 else 0)

/-- R149, R141: SUB_Vx_Vy writes the difference modulo 256 and the strictly-positive flag: 1 exactly when V[x] > V[y]. -/
def Obligations.SubtractWithFlag : Prop :=
  ∀ (x y : Reg) (s : State), decode (encodeXyn 0x8 x y 0x5) = .ok (.subVxVy x y) ∧
    ∃ t b, exec (.subVxVy x y) s = .next t ∧ b.toNat = ((s.reg x).toNat + 256 - (s.reg y).toNat) % 256 ∧
      WritesRegAndFlag s t x b (if (s.reg x).toNat > (s.reg y).toNat then 1 else 0)

/-- R151, R141: SUBN writes V[y] - V[x] modulo 256 and the strictly-positive flag: 1 exactly when V[y] > V[x]. -/
def Obligations.ReverseSubtractWithFlag : Prop :=
  ∀ (x y : Reg) (s : State), decode (encodeXyn 0x8 x y 0x7) = .ok (.subn x y) ∧
    ∃ t b, exec (.subn x y) s = .next t ∧ b.toNat = ((s.reg y).toNat + 256 - (s.reg x).toNat) % 256 ∧
      WritesRegAndFlag s t x b (if (s.reg y).toNat > (s.reg x).toNat then 1 else 0)

/-- R150, R93, R141: SHR halves V[x], VF the bit shifted out; the encoded y has no effect. -/
def Obligations.ShiftRightWithFlag : Prop :=
  ∀ (x y : Reg) (s : State), decode (encodeXyn 0x8 x y 0x6) = .ok (.shr x y) ∧
    (∃ t b f, exec (.shr x y) s = .next t ∧ b.toNat = (s.reg x).toNat / 2 ∧ f.toNat = (s.reg x).toNat % 2 ∧
      WritesRegAndFlag s t x b f) ∧
    ∀ y', exec (.shr x y') s = exec (.shr x y) s

/-- R152, R93, R141: SHL doubles V[x] modulo 256, VF the bit shifted out; the encoded y has no effect. -/
def Obligations.ShiftLeftWithFlag : Prop :=
  ∀ (x y : Reg) (s : State), decode (encodeXyn 0x8 x y 0xE) = .ok (.shl x y) ∧
    (∃ t b f, exec (.shl x y) s = .next t ∧ b.toNat = (s.reg x).toNat * 2 % 256 ∧ f.toNat = (s.reg x).toNat / 128 ∧
      WritesRegAndFlag s t x b f) ∧
    ∀ y', exec (.shl x y') s = exec (.shl x y) s

/-- R153: RND writes the run's next random byte, any byte at all, masked with kk; bits where kk is 0 are 0. -/
def Obligations.RandomByteMasked : Prop :=
  ∀ (x : Reg) (kk : Byte) (s : State), decode (encodeXkk 0xC x kk) = .ok (.rnd x kk) ∧
    ∃ t, exec (.rnd x kk) s = .next t ∧ t.reg x = Config.randomByte s.draws &&& kk ∧
      (∀ k, kk.getLsbD k = false → (t.reg x).getLsbD k = false) ∧ (∀ r, r ≠ x → t.reg r = s.reg r) ∧
      t = { s with pc := s.pc + 2, v := t.v, draws := s.draws + 1 }

/-! ## Index register and memory transfers (43_index_memory.md) -/

/-- R170, R171, R172: what I becomes; VF is not written, and nothing but I and PC changes. -/
def Obligations.IndexRegisterWrites : Prop :=
  ∀ (nnn : Addr12) (x : Reg) (s : State),
    decode (encodeNnn 0xA nnn) = .ok (.ldIAddr nnn) ∧ decode (encodeXkk 0xF x 0x1E) = .ok (.addIVx x) ∧
    decode (encodeXkk 0xF x 0x29) = .ok (.ldFVx x) ∧
    (∃ t, exec (.ldIAddr nnn) s = .next t ∧ t.i.toNat = nnn.toNat ∧ t = { s with pc := s.pc + 2, i := t.i }) ∧
    (∃ t, exec (.addIVx x) s = .next t ∧ t.i.toNat = (s.i.toNat + (s.reg x).toNat) % 65536 ∧
      t = { s with pc := s.pc + 2, i := t.i }) ∧
    (∃ t, exec (.ldFVx x) s = .next t ∧ t.i.toNat = (s.reg x).toNat * 5 ∧ t = { s with pc := s.pc + 2, i := t.i })

/-- R173: LD_B_Vx stores the three decimal digits of V[x], the hundreds first, and no other byte; I is unchanged. Beyond 0xFFF it
raises MemoryOutOfRange and writes nothing. -/
def Obligations.BcdDigitsStored : Prop :=
  ∀ (x : Reg) (s : State), decode (encodeXkk 0xF x 0x33) = .ok (.ldBVx x) ∧
    (s.i.toNat + 2 ≤ 0xFFF → ∃ t d2 d1 d0, exec (.ldBVx x) s = .next t ∧
      t.byte s.i.toNat = d2 ∧ t.byte (s.i.toNat + 1) = d1 ∧ t.byte (s.i.toNat + 2) = d0 ∧
      d2.toNat ≤ 2 ∧ d1.toNat ≤ 9 ∧ d0.toNat ≤ 9 ∧ d2.toNat * 100 + d1.toNat * 10 + d0.toNat = (s.reg x).toNat ∧
      SameBytesOutside s.i.toNat 3 s t ∧ t = { s with pc := s.pc + 2, mem := t.mem }) ∧
    (0xFFF < s.i.toNat + 2 →
      EntersFault (exec (.ldBVx x) s) s (.memoryOutOfRange s.pc (BitVec.ofNat 16 (max s.i.toNat 0x1000))))

/-- R174: LD_I_Vx stores V0..Vx at I, and no other byte; I is unchanged. Beyond 0xFFF it raises MemoryOutOfRange and writes
nothing. -/
def Obligations.RegistersStored : Prop :=
  ∀ (x : Reg) (s : State), decode (encodeXkk 0xF x 0x55) = .ok (.ldIVx x) ∧
    (s.i.toNat + x.val ≤ 0xFFF → ∃ t, exec (.ldIVx x) s = .next t ∧
      (∀ r : Reg, r ≤ x → t.byte (s.i.toNat + r.val) = s.reg r) ∧
      SameBytesOutside s.i.toNat (x.val + 1) s t ∧ t = { s with pc := s.pc + 2, mem := t.mem }) ∧
    (0xFFF < s.i.toNat + x.val →
      EntersFault (exec (.ldIVx x) s) s (.memoryOutOfRange s.pc (BitVec.ofNat 16 (max s.i.toNat 0x1000))))

/-- R175: LD_Vx_I loads V0..Vx from I, leaves the registers above x, I and memory unchanged. Beyond 0xFFF it raises
MemoryOutOfRange and writes no register. -/
def Obligations.RegistersLoaded : Prop :=
  ∀ (x : Reg) (s : State), decode (encodeXkk 0xF x 0x65) = .ok (.ldVxI x) ∧
    (s.i.toNat + x.val ≤ 0xFFF → ∃ t, exec (.ldVxI x) s = .next t ∧
      (∀ r : Reg, r ≤ x → t.reg r = s.byte (s.i.toNat + r.val)) ∧ (∀ r : Reg, x < r → t.reg r = s.reg r) ∧
      OnlyRegs s t) ∧
    (0xFFF < s.i.toNat + x.val →
      EntersFault (exec (.ldVxI x) s) s (.memoryOutOfRange s.pc (BitVec.ofNat 16 (max s.i.toNat 0x1000))))

/-- R174, R175: registers stored by LD_I_Vx come back by LD_Vx_I from the same I, whatever the registers hold in between. -/
def Obligations.StoreThenLoadRegisters : Prop :=
  ∀ (x : Reg) (s : State) (v : RegFile), s.i.toNat + x.val ≤ 0xFFF →
    ∃ t u, exec (.ldIVx x) s = .next t ∧ exec (.ldVxI x) { t with v := v } = .next u ∧
      (∀ r : Reg, r ≤ x → u.reg r = s.reg r) ∧ (∀ r : Reg, x < r → u.reg r = v[r.val])

/-! ## Timers (44_timers.md, 60_exceptions.md) -/

/-- R185, R186, R187: the timer instructions move one byte between V[x] and a timer. -/
def Obligations.TimerInstructions : Prop :=
  ∀ (x : Reg) (s : State),
    decode (encodeXkk 0xF x 0x07) = .ok (.ldVxDt x) ∧ decode (encodeXkk 0xF x 0x15) = .ok (.ldDtVx x) ∧
    decode (encodeXkk 0xF x 0x18) = .ok (.ldStVx x) ∧
    (∃ t, exec (.ldVxDt x) s = .next t ∧ WritesReg s t x s.dt) ∧
    exec (.ldDtVx x) s = .next { s with pc := s.pc + 2, dt := s.reg x } ∧
    exec (.ldStVx x) s = .next { s with pc := s.pc + 2, st := s.reg x }

/-- R107, R243, R245: after the last slot both timers go down by at most 1, floored at 0; then tone.start() is called while ST is
above 0 and tone.stop() otherwise; then present(); tick returns ok, and nothing else changes. -/
def Obligations.ClosingStages : Prop :=
  ∀ s : State, s.phase = .slots 0 →
    ∃ t, step s = .next t ∧ t.dt.toNat = s.dt.toNat - 1 ∧ t.st.toNat = s.st.toNat - 1 ∧
      t = { s with
        dt := t.dt, st := t.st, phase := .between, lastResult := some .ok
        history := .present :: (if 0 < t.st.toNat then .toneStart else .toneStop) :: s.history }

/-- R281, R243: after j timer stages a timer that held k holds k - j, and 0 from the k-th on. -/
def Obligations.TimersCountDown : Prop :=
  ∀ (j : Nat) (s : State),
    (State.timerStage^[j] s).dt.toNat = s.dt.toNat - j ∧ (State.timerStage^[j] s).st.toNat = s.st.toNat - j

/-! ## Display, keys and wait (45_io.md) -/

/-- R200: CLS clears every pixel through clear(), and VF is unchanged. -/
def Obligations.ClearPlane : Prop :=
  decode 0x00E0#16 = .ok .cls ∧
  ∀ s : State, ∃ t, exec .cls s = .next t ∧ (∀ x y, pixel t.plane x y = false) ∧
    t = { s with pc := s.pc + 2, plane := t.plane, history := .clear :: s.history }

/-- R201: DRW XORs its sprite, wrapped on both axes, onto the plane, one pixel at most once, and VF is 1 exactly when a set pixel
was cleared. With n = 0 no port is called, nothing is drawn and VF becomes 0. A sprite beyond 0xFFF raises
MemoryOutOfRange and changes neither VF nor the plane. -/
def Obligations.SpriteDrawn : Prop :=
  ∀ (x y : Reg) (n : Nibble) (s : State), decode (encodeXyn 0xD x y n) = .ok (.drw x y n) ∧
    (n = 0 ∨ s.i.toNat + n.toNat - 1 ≤ 0xFFF → ∃ t, exec (.drw x y n) s = .next t ∧
      (∀ px py, px < 64 → py < 32 → pixel t.plane px py = (pixel s.plane px py ^^ spriteBit s x y n px py)) ∧
      (t.reg 15 = 0 ∨ t.reg 15 = 1) ∧
      (t.reg 15 = 1 ↔ ∃ px py, px < 64 ∧ py < 32 ∧ pixel s.plane px py = true ∧ spriteBit s x y n px py = true) ∧
      (∀ r, r ≠ 15 → t.reg r = s.reg r) ∧ (n = 0 → t.reg 15 = 0 ∧ t.plane = s.plane ∧ t.history = s.history) ∧
      t = { s with pc := s.pc + 2, v := t.v, plane := t.plane, history := t.history }) ∧
    (n ≠ 0 → 0xFFF < s.i.toNat + n.toNat - 1 →
      EntersFault (exec (.drw x y n) s) s (.memoryOutOfRange s.pc (BitVec.ofNat 16 (max s.i.toNat 0x1000))))

/-- R202: the set_pixel calls of one DRW, row by row and col 0 to col 7, zero bits included. The history is kept newest first, log
entry 13. -/
def Obligations.SpritePortCalls : Prop :=
  ∀ (x y : Reg) (n : Nibble) (s : State), (n = 0 ∨ s.i.toNat + n.toNat - 1 ≤ 0xFFF) →
    ∃ t, exec (.drw x y n) s = .next t ∧
      t.history = ((List.range n.toNat).flatMap fun row => (List.range 8).map fun col =>
        PortEvent.setPixel (((s.reg x).toNat + col) % 64) (((s.reg y).toNat + row) % 32)
          ((s.byte (s.i.toNat + row)).getLsbD (7 - col))).reverse ++ s.history

/-- R201 and the source's property: drawing a sprite twice at the same place leaves every pixel as it was, and the second DRW
reports a collision exactly when the first one set a pixel. -/
def Obligations.DrawTwiceRestoresPlane : Prop :=
  ∀ (x y : Reg) (n : Nibble) (s : State), x ≠ 15 → y ≠ 15 → (n = 0 ∨ s.i.toNat + n.toNat - 1 ≤ 0xFFF) →
    ∃ t u, exec (.drw x y n) s = .next t ∧ exec (.drw x y n) t = .next u ∧
      (∀ px py, px < 64 → py < 32 → pixel u.plane px py = pixel s.plane px py) ∧
      (u.reg 15 = 1 ↔ ∃ px py, px < 64 ∧ py < 32 ∧ pixel s.plane px py = false ∧ pixel t.plane px py = true)

/-- R203, R204, R205: the key skips take one answer for the byte V[x], whatever its value, a fresh draw (log entry 2). R209: one
query is_pressed is made at the key port, kept in the port history; that it is made and kept also for V[x] of 16 and more, where
R203 gives an arbitrary answer and the port's contract ends at 15, is DEDUCED, log entry 13. -/
def Obligations.SkipOnKey : Prop :=
  ∀ (x : Reg) (s : State),
    decode (encodeXkk 0xE x 0x9E) = .ok (.skpVx x) ∧ decode (encodeXkk 0xE x 0xA1) = .ok (.sknpVx x) ∧
    exec (.skpVx x) s = .next { s with
      pc := if Config.keyAnswer s.draws (s.reg x) = true then s.pc + 4 else s.pc + 2
      history := .isPressed (s.reg x) :: s.history, draws := s.draws + 1 } ∧
    exec (.sknpVx x) s = .next { s with
      pc := if Config.keyAnswer s.draws (s.reg x) = true then s.pc + 2 else s.pc + 4
      history := .isPressed (s.reg x) :: s.history, draws := s.draws + 1 }

/-- R206, R209: LD_Vx_K sets PAUSE and PENDING_KEY and registers at the key port; V[x] is not written by it. That the registration
is kept in the port history is DEDUCED, log entry 13. -/
def Obligations.WaitForKey : Prop :=
  ∀ (x : Reg) (s : State), decode (encodeXkk 0xF x 0x0A) = .ok (.ldVxK x) ∧
    exec (.ldVxK x) s = .next { s with
      pc := s.pc + 2, pause := true, pendingKey := some x, history := .onNextKeyPress x :: s.history }

/-- R207: the key-press event writes the key code into the pending register and ends the pause, and changes nothing else; with no
pending request it has no effect. -/
def Obligations.KeyPressEvent : Prop :=
  ∀ (s : State) (k : Key),
    (∀ x, s.pendingKey = some x →
      ((s.keyPress k).reg x).toNat = k.val ∧ (∀ r, r ≠ x → (s.keyPress k).reg r = s.reg r) ∧
      s.keyPress k = { s with v := (s.keyPress k).v, pendingKey := none, pause := false }) ∧
    (s.pendingKey = none → s.keyPress k = s)

/-! ## Reset, load and the control surface (70_reset_and_hazards.md, 40_cycle.md) -/

/-- R271, R272: what reset leaves, from any state and for any glyph bytes P_GLYPHS; SPEED, the plane and the port history are
unchanged. The last clause says beside the rule what becomes of the model's own fields: no tick is running, as R111 has it, and the
count of draws, the script and the last result are kept, which is the model's choice, log entry 7 (that the host's call of reset
then leaves no result is HostCallsPerformed). -/
def Obligations.ResetValues : Prop :=
  ∀ s : State,
    (∀ r, s.hostReset.reg r = 0x00) ∧
    (∀ a (h : a < 0x050), s.hostReset.byte a = s.glyphs[a]) ∧
    (∀ a, 0x050 ≤ a → a ≤ 0xFFF → s.hostReset.byte a = 0x00) ∧
    s.hostReset = { s with
      v := s.hostReset.v, mem := s.hostReset.mem, i := 0x0000, pc := 0x0200, stack := [], dt := 0x00, st := 0x00
      pause := false, pendingKey := none, fault := none, runState := .idle, phase := .between }

/-- R273: two resets from any two states of one block (its P_GLYPHS is one parameter, R7) give identical memory, registers, stack
and timers, and reset is idempotent. Only the bytes below 0x050 depend on P_GLYPHS. -/
def Obligations.ResetIsIdempotent : Prop :=
  ∀ s t : State,
    (s.glyphs = t.glyphs → ∀ a, s.hostReset.byte a = t.hostReset.byte a) ∧
    (∀ a, 0x050 ≤ a → s.hostReset.byte a = t.hostReset.byte a) ∧ s.hostReset.mem = t.hostReset.mem ∧
    s.hostReset.v = t.hostReset.v ∧ s.hostReset.i = t.hostReset.i ∧ s.hostReset.stack = t.hostReset.stack ∧
    s.hostReset.dt = t.hostReset.dt ∧ s.hostReset.st = t.hostReset.st ∧ s.hostReset.hostReset = s.hostReset

/-- R274, R275: an accepted load resets, copies the program to 0x200, makes the block Ready and returns ok; every other byte is
as reset leaves it. -/
def Obligations.LoadInstallsProgram : Prop :=
  ∀ (s : State) (p : List Byte), p.length ≤ 3584 →
    (∀ k (h : k < p.length), (s.load p).byte (0x200 + k) = p[k]) ∧
    (∀ a, (a < 0x200 ∨ 0x200 + p.length ≤ a) → (s.load p).byte a = s.hostReset.byte a) ∧
    s.load p = { s.hostReset with mem := (s.load p).mem, runState := .ready, lastResult := some .ok }

/-- R276, R235: a program of more than 3584 bytes is refused with LoadError and its length, and no state changes; one of exactly
3584 bytes is accepted and fills 0x200 to 0xFFF. -/
def Obligations.LoadTooLongChangesNothing : Prop :=
  ∀ (s : State) (p : List Byte),
    (3584 < p.length → s.load p = { s with lastResult := some (.loadError p.length) }) ∧
    (p.length = 3584 → (s.load p).runState = .ready ∧ (s.load p).lastResult = some .ok ∧
      ∀ a, 0x200 ≤ a → a ≤ 0xFFF → (s.load p).byte a = p.getD (a - 0x200) 0)

/-- R110: a tick in Idle returns ok and a tick in Faulted the stored record again, and neither changes any state or calls a port;
of the host's calls only reset and load leave Faulted. -/
def Obligations.TickWhenNotReady : Prop :=
  ∀ s : State,
    (s.runState = .idle → s.tick = .next { s with lastResult := some .ok }) ∧
    (∀ f, s.runState = .faulted → s.fault = some f → s.tick = .next { s with lastResult := some (.fault f) }) ∧
    (∀ c, s.runState = .faulted → (s.perform c).runState ≠ .faulted → c = .reset ∨ ∃ p, c = .load p)

/-- R35, R111 and the model's choice of log entry 9: between ticks a step takes the next host call of the script, and performs the
key-press event, reset or load it names. -/
def Obligations.HostCallsPerformed : Prop :=
  ∀ (s : State) (rest : List HostCall) (k : Key) (p : List Byte), s.phase = .between →
    (s.script = .keyPress k :: rest → step s = .next { s.keyPress k with script := rest, lastResult := none }) ∧
    (s.script = .reset :: rest → step s = .next { s.hostReset with script := rest, lastResult := none }) ∧
    (s.script = .load p :: rest → step s = .next { s.load p with script := rest })

/-- R100, R31 and the model's choice of log entry 9: a tick in Ready opens SPEED slots, set_speed writes SPEED, and with no host
call left in the script the driver ticks. -/
def Obligations.TickOpensSlots : Prop :=
  ∀ (s : State) (rest : List HostCall) (n : Nat), s.phase = .between →
    (s.script = .tick :: rest → s.runState = .ready →
      step s = .next { s with script := rest, phase := .slots s.speed }) ∧
    (s.script = .setSpeed n :: rest → step s = .next { s with script := rest, speed := n, lastResult := none }) ∧
    (s.script = [] → s.runState = .ready → step s = .next { s with phase := .slots s.speed })

/-- R208: after reset, or an accepted load, a key-press event writes no register, even when a key wait was pending before. -/
def Obligations.CancelledKeyWait : Prop :=
  ∀ (s : State) (k : Key) (p : List Byte), p.length ≤ 3584 →
    s.hostReset.keyPress k = s.hostReset ∧ (s.load p).keyPress k = s.load p

/-- R270, R40, R7, R272: whatever glyph bytes g the block has, the created state is the state after reset, with SPEED = 10 and g at
0x000 to 0x04F; the model's reset state is the one with the default glyphs, the first and the last of which are named. -/
def Obligations.PowerUpState : Prop :=
  (∀ g : GlyphTable,
    (State.powerUp g).hostReset = State.powerUp g ∧ (State.powerUp g).glyphs = g ∧
    (∀ a (h : a < 0x050), (State.powerUp g).byte a = g[a]) ∧
    (State.powerUp g).speed = 10 ∧ (State.powerUp g).runState = .idle ∧ (State.powerUp g).pc = 0x200 ∧
    (State.powerUp g).plane = Config.initialPlane) ∧
  State.reset = State.powerUp Config.defaultGlyphs ∧
  State.reset.bytes 0x000 5 = [0xF0, 0x90, 0x90, 0x90, 0xF0] ∧ State.reset.bytes 0x04B 5 = [0xF0, 0x80, 0xF0, 0x80, 0x80]

/-! ## Rules about the whole machine -/

/-- R39: the invariant holds at power-up, whatever glyph bytes the block has (R7). -/
def Obligations.InvariantAtReset : Prop := State.reset.Inv ∧ ∀ g : GlyphTable, (State.powerUp g).Inv

/-- R39, R26: every step keeps the invariant, from every state that meets it, and no step writes the parameter P_GLYPHS (R7). -/
def Obligations.InvariantKeptByStep : Prop :=
  ∀ s t : State, s.Inv → step s = .next t → t.Inv ∧ t.glyphs = s.glyphs

/-- R92, R109, R113, R237: every step answers a next state: no instruction, fault or host call stops the model. -/
def Obligations.EveryStepAnswersNext : Prop :=
  ∀ s : State, ∃ t, step s = .next t

/-- R100, R107, R108: running the machine step by step from the beginning of a tick gives what the atomic tick() of R100 gives,
in at most SPEED + 2 steps: a tick that the script names, which is then taken off the script, and the tick of a driver whose script
is empty. That a tick is cut into steps is the model's choice, log entry 8; that host calls come from a script, and that the driver
only ticks once it is empty, is the model's choice, log entry 9 (unsafe for what happens after the script's end). -/
def Obligations.TickIsRunOfSteps : Prop :=
  ∀ s : State, s.phase = .between →
    (∀ rest, s.script = .tick :: rest →
      ∃ k, 1 ≤ k ∧ k ≤ s.speed + 2 ∧ Host.Core.run core k s = ({ s with script := rest } : State).tick) ∧
    (s.script = [] → ∃ k, 1 ≤ k ∧ k ≤ s.speed + 2 ∧ Host.Core.run core k s = s.tick)

/-- R23: which registers an instruction may write; every other register is unchanged, and the key-press event writes no register
but the pending one. -/
def Obligations.RegisterWriters : Prop :=
  (∀ (i : Instr) (s t : State) (r : Reg), exec i s = .next t → writesRegister i r = false → t.reg r = s.reg r) ∧
  (∀ (s : State) (k : Key) (r : Reg), s.pendingKey ≠ some r → (s.keyPress k).reg r = s.reg r)

/-- R24, R27, R28, R30, R36, R65, R209: which instructions may write I, the stack, the timers, memory, the plane, PAUSE and
PENDING_KEY, and which call a port or consume a draw; SPEED, P_GLYPHS and the host's script are written
by none. -/
def Obligations.StateWriters : Prop :=
  ∀ (i : Instr) (s t : State), exec i s = .next t →
    (t.i = s.i ∨ (∃ nnn, i = .ldIAddr nnn) ∨ (∃ x, i = .addIVx x) ∨ ∃ x, i = .ldFVx x) ∧
    (t.stack = s.stack ∨ i = .ret ∨ ∃ nnn, i = .callAddr nnn) ∧
    (t.dt = s.dt ∨ ∃ x, i = .ldDtVx x) ∧ (t.st = s.st ∨ ∃ x, i = .ldStVx x) ∧
    SameBytesOutside s.i.toNat (storedBytes i) s t ∧
    (t.plane = s.plane ∨ i = .cls ∨ ∃ x y n, i = .drw x y n) ∧
    ((t.pause = s.pause ∧ t.pendingKey = s.pendingKey) ∨ ∃ x, i = .ldVxK x) ∧
    (t.history = s.history ∨ i = .cls ∨ (∃ x y n, i = .drw x y n) ∨ (∃ x, i = .skpVx x) ∨ (∃ x, i = .sknpVx x) ∨
      ∃ x, i = .ldVxK x) ∧
    (t.draws = s.draws ∨ (∃ x kk, i = .rnd x kk) ∨ (∃ x, i = .skpVx x) ∨ ∃ x, i = .sknpVx x) ∧
    t.speed = s.speed ∧ t.glyphs = s.glyphs ∧ t.script = s.script

/-- R238, R108: whenever a slot of a Ready tick faults, nothing but FAULT, RUN_STATE and the end of the tick changes: every
register, PC, memory, the plane and the port history are as before the slot. -/
def Obligations.FaultsArePrecise : Prop :=
  ∀ (s t : State) (n : Nat), s.phase = .slots (n + 1) → s.runState = .ready → step s = .next t → t.runState = .faulted →
    ∃ f, EntersFault (step s) s f

/-- R230, R234: only RET, CALL_ADDR, DRW, LD_B_Vx, LD_I_Vx and LD_Vx_I raise a fault of their own; every other instruction leaves
RUN_STATE and FAULT as they were. -/
def Obligations.OnlyCheckedInstructionsFault : Prop :=
  ∀ (i : Instr) (s t : State), exec i s = .next t →
    (i ≠ .ret ∧ (∀ nnn, i ≠ .callAddr nnn) ∧ (∀ x y n, i ≠ .drw x y n) ∧ (∀ x, i ≠ .ldBVx x) ∧ (∀ x, i ≠ .ldIVx x) ∧
      ∀ x, i ≠ .ldVxI x) →
    t.runState = s.runState ∧ t.fault = s.fault ∧ t.phase = s.phase ∧ t.lastResult = s.lastResult
end

