-- ==== Sys2Proof/Laws/Encoding.lean ====
section
/-!
SUPPORT. The fields of a word put together from fields, and the well-formedness of every instruction term.
-/

namespace Sys2Proof

/-- No instruction term is ill-formed: its operands' types carry the bounds (R83). -/
theorem Instr.wellFormed_all (i : Instr) : i.wellFormed = true := by
  have hr : ∀ x : Reg, x.inRange = true := fun x => by simp [Reg.inRange]
  have hk : ∀ k : Byte, k.toNat < 256 := fun k => k.isLt
  have hn : ∀ k : Nibble, k.toNat < 16 := fun k => k.isLt
  have ha : ∀ k : Addr12, k.toNat < 4096 := fun k => k.isLt
  cases i <;> simp [Instr.wellFormed, hr, hk, hn, ha]

/-- The fields of op nnn (R81). -/
theorem fieldsOf_encodeNnn (op : Nibble) (nnn : Addr12) :
    (fieldsOf (encodeNnn op nnn)).op = op ∧ (fieldsOf (encodeNnn op nnn)).nnn = nnn := by
  refine ⟨?_, ?_⟩
  all_goals simp only [fieldsOf, encodeNnn]
  all_goals ext k hk
  all_goals simp
  all_goals grind

/-- The fields of op x kk (R81). -/
theorem fieldsOf_encodeXkk (op : Nibble) (x : Reg) (kk : Byte) :
    (fieldsOf (encodeXkk op x kk)).op = op ∧ (fieldsOf (encodeXkk op x kk)).x = x ∧
      (fieldsOf (encodeXkk op x kk)).kk = kk := by
  have key : ∀ b : BitVec 4, (op ++ b ++ kk).extractLsb' 12 4 = op ∧ (op ++ b ++ kk).extractLsb' 8 4 = b ∧
      (op ++ b ++ kk).extractLsb' 0 8 = kk := by
    intro b
    refine ⟨?_, ?_, ?_⟩
    all_goals ext k hk
    all_goals simp
    all_goals grind
  obtain ⟨h1, h2, h3⟩ := key (BitVec.ofFin x)
  exact ⟨h1, congrArg BitVec.toFin h2, h3⟩

/-- The fields of op x y n (R81). -/
theorem fieldsOf_encodeXyn (op : Nibble) (x y : Reg) (n : Nibble) :
    (fieldsOf (encodeXyn op x y n)).op = op ∧ (fieldsOf (encodeXyn op x y n)).x = x ∧
      (fieldsOf (encodeXyn op x y n)).y = y ∧ (fieldsOf (encodeXyn op x y n)).n = n := by
  have key : ∀ b c : BitVec 4, (op ++ b ++ c ++ n).extractLsb' 12 4 = op ∧ (op ++ b ++ c ++ n).extractLsb' 8 4 = b ∧
      (op ++ b ++ c ++ n).extractLsb' 4 4 = c ∧ (op ++ b ++ c ++ n).extractLsb' 0 4 = n := by
    intro b c
    refine ⟨?_, ?_, ?_, ?_⟩
    all_goals ext k hk
    all_goals simp
    all_goals grind
  obtain ⟨h1, h2, h3, h4⟩ := key (BitVec.ofFin x) (BitVec.ofFin y)
  exact ⟨h1, congrArg BitVec.toFin h2, congrArg BitVec.toFin h3, h4⟩

end Sys2Proof
end

