-- ==== Sys2Proof/Laws/State.lean ====
section
/-!
SUPPORT. One lemma per field per named update of State, true by rfl, so that no proof unfolds a record update.
-/

namespace Sys2Proof.Machine

variable (s : State)

@[simp] theorem State.setReg_v (x : Reg) (b : Byte) : (s.setReg x b).v = s.v.set x.val b := rfl
@[simp] theorem State.setReg_i (x : Reg) (b : Byte) : (s.setReg x b).i = s.i := rfl
@[simp] theorem State.setReg_pc (x : Reg) (b : Byte) : (s.setReg x b).pc = s.pc := rfl
@[simp] theorem State.setReg_stack (x : Reg) (b : Byte) : (s.setReg x b).stack = s.stack := rfl
@[simp] theorem State.setReg_dt (x : Reg) (b : Byte) : (s.setReg x b).dt = s.dt := rfl
@[simp] theorem State.setReg_st (x : Reg) (b : Byte) : (s.setReg x b).st = s.st := rfl
@[simp] theorem State.setReg_mem (x : Reg) (b : Byte) : (s.setReg x b).mem = s.mem := rfl
@[simp] theorem State.setReg_speed (x : Reg) (b : Byte) : (s.setReg x b).speed = s.speed := rfl
@[simp] theorem State.setReg_pause (x : Reg) (b : Byte) : (s.setReg x b).pause = s.pause := rfl
@[simp] theorem State.setReg_pendingKey (x : Reg) (b : Byte) : (s.setReg x b).pendingKey = s.pendingKey := rfl
@[simp] theorem State.setReg_runState (x : Reg) (b : Byte) : (s.setReg x b).runState = s.runState := rfl
@[simp] theorem State.setReg_fault (x : Reg) (b : Byte) : (s.setReg x b).fault = s.fault := rfl
@[simp] theorem State.setReg_plane (x : Reg) (b : Byte) : (s.setReg x b).plane = s.plane := rfl
@[simp] theorem State.setReg_glyphs (x : Reg) (b : Byte) : (s.setReg x b).glyphs = s.glyphs := rfl
@[simp] theorem State.setReg_phase (x : Reg) (b : Byte) : (s.setReg x b).phase = s.phase := rfl
@[simp] theorem State.setReg_lastResult (x : Reg) (b : Byte) : (s.setReg x b).lastResult = s.lastResult := rfl
@[simp] theorem State.setReg_history (x : Reg) (b : Byte) : (s.setReg x b).history = s.history := rfl
@[simp] theorem State.setReg_draws (x : Reg) (b : Byte) : (s.setReg x b).draws = s.draws := rfl
@[simp] theorem State.setReg_script (x : Reg) (b : Byte) : (s.setReg x b).script = s.script := rfl

@[simp] theorem State.setRegs_v (v : RegFile) : (s.setRegs v).v = v := rfl
@[simp] theorem State.setRegs_i (v : RegFile) : (s.setRegs v).i = s.i := rfl
@[simp] theorem State.setRegs_pc (v : RegFile) : (s.setRegs v).pc = s.pc := rfl
@[simp] theorem State.setRegs_stack (v : RegFile) : (s.setRegs v).stack = s.stack := rfl
@[simp] theorem State.setRegs_dt (v : RegFile) : (s.setRegs v).dt = s.dt := rfl
@[simp] theorem State.setRegs_st (v : RegFile) : (s.setRegs v).st = s.st := rfl
@[simp] theorem State.setRegs_mem (v : RegFile) : (s.setRegs v).mem = s.mem := rfl
@[simp] theorem State.setRegs_speed (v : RegFile) : (s.setRegs v).speed = s.speed := rfl
@[simp] theorem State.setRegs_pause (v : RegFile) : (s.setRegs v).pause = s.pause := rfl
@[simp] theorem State.setRegs_pendingKey (v : RegFile) : (s.setRegs v).pendingKey = s.pendingKey := rfl
@[simp] theorem State.setRegs_runState (v : RegFile) : (s.setRegs v).runState = s.runState := rfl
@[simp] theorem State.setRegs_fault (v : RegFile) : (s.setRegs v).fault = s.fault := rfl
@[simp] theorem State.setRegs_plane (v : RegFile) : (s.setRegs v).plane = s.plane := rfl
@[simp] theorem State.setRegs_glyphs (v : RegFile) : (s.setRegs v).glyphs = s.glyphs := rfl
@[simp] theorem State.setRegs_phase (v : RegFile) : (s.setRegs v).phase = s.phase := rfl
@[simp] theorem State.setRegs_lastResult (v : RegFile) : (s.setRegs v).lastResult = s.lastResult := rfl
@[simp] theorem State.setRegs_history (v : RegFile) : (s.setRegs v).history = s.history := rfl
@[simp] theorem State.setRegs_draws (v : RegFile) : (s.setRegs v).draws = s.draws := rfl
@[simp] theorem State.setRegs_script (v : RegFile) : (s.setRegs v).script = s.script := rfl

@[simp] theorem State.setI_v (w : Word) : (s.setI w).v = s.v := rfl
@[simp] theorem State.setI_i (w : Word) : (s.setI w).i = w := rfl
@[simp] theorem State.setI_pc (w : Word) : (s.setI w).pc = s.pc := rfl
@[simp] theorem State.setI_stack (w : Word) : (s.setI w).stack = s.stack := rfl
@[simp] theorem State.setI_dt (w : Word) : (s.setI w).dt = s.dt := rfl
@[simp] theorem State.setI_st (w : Word) : (s.setI w).st = s.st := rfl
@[simp] theorem State.setI_mem (w : Word) : (s.setI w).mem = s.mem := rfl
@[simp] theorem State.setI_speed (w : Word) : (s.setI w).speed = s.speed := rfl
@[simp] theorem State.setI_pause (w : Word) : (s.setI w).pause = s.pause := rfl
@[simp] theorem State.setI_pendingKey (w : Word) : (s.setI w).pendingKey = s.pendingKey := rfl
@[simp] theorem State.setI_runState (w : Word) : (s.setI w).runState = s.runState := rfl
@[simp] theorem State.setI_fault (w : Word) : (s.setI w).fault = s.fault := rfl
@[simp] theorem State.setI_plane (w : Word) : (s.setI w).plane = s.plane := rfl
@[simp] theorem State.setI_glyphs (w : Word) : (s.setI w).glyphs = s.glyphs := rfl
@[simp] theorem State.setI_phase (w : Word) : (s.setI w).phase = s.phase := rfl
@[simp] theorem State.setI_lastResult (w : Word) : (s.setI w).lastResult = s.lastResult := rfl
@[simp] theorem State.setI_history (w : Word) : (s.setI w).history = s.history := rfl
@[simp] theorem State.setI_draws (w : Word) : (s.setI w).draws = s.draws := rfl
@[simp] theorem State.setI_script (w : Word) : (s.setI w).script = s.script := rfl

@[simp] theorem State.jump_v (w : Word) : (s.jump w).v = s.v := rfl
@[simp] theorem State.jump_i (w : Word) : (s.jump w).i = s.i := rfl
@[simp] theorem State.jump_pc (w : Word) : (s.jump w).pc = w := rfl
@[simp] theorem State.jump_stack (w : Word) : (s.jump w).stack = s.stack := rfl
@[simp] theorem State.jump_dt (w : Word) : (s.jump w).dt = s.dt := rfl
@[simp] theorem State.jump_st (w : Word) : (s.jump w).st = s.st := rfl
@[simp] theorem State.jump_mem (w : Word) : (s.jump w).mem = s.mem := rfl
@[simp] theorem State.jump_speed (w : Word) : (s.jump w).speed = s.speed := rfl
@[simp] theorem State.jump_pause (w : Word) : (s.jump w).pause = s.pause := rfl
@[simp] theorem State.jump_pendingKey (w : Word) : (s.jump w).pendingKey = s.pendingKey := rfl
@[simp] theorem State.jump_runState (w : Word) : (s.jump w).runState = s.runState := rfl
@[simp] theorem State.jump_fault (w : Word) : (s.jump w).fault = s.fault := rfl
@[simp] theorem State.jump_plane (w : Word) : (s.jump w).plane = s.plane := rfl
@[simp] theorem State.jump_glyphs (w : Word) : (s.jump w).glyphs = s.glyphs := rfl
@[simp] theorem State.jump_phase (w : Word) : (s.jump w).phase = s.phase := rfl
@[simp] theorem State.jump_lastResult (w : Word) : (s.jump w).lastResult = s.lastResult := rfl
@[simp] theorem State.jump_history (w : Word) : (s.jump w).history = s.history := rfl
@[simp] theorem State.jump_draws (w : Word) : (s.jump w).draws = s.draws := rfl
@[simp] theorem State.jump_script (w : Word) : (s.jump w).script = s.script := rfl

@[simp] theorem State.advance_v : (s.advance).v = s.v := rfl
@[simp] theorem State.advance_i : (s.advance).i = s.i := rfl
@[simp] theorem State.advance_pc : (s.advance).pc = s.pc + 2 := rfl
@[simp] theorem State.advance_stack : (s.advance).stack = s.stack := rfl
@[simp] theorem State.advance_dt : (s.advance).dt = s.dt := rfl
@[simp] theorem State.advance_st : (s.advance).st = s.st := rfl
@[simp] theorem State.advance_mem : (s.advance).mem = s.mem := rfl
@[simp] theorem State.advance_speed : (s.advance).speed = s.speed := rfl
@[simp] theorem State.advance_pause : (s.advance).pause = s.pause := rfl
@[simp] theorem State.advance_pendingKey : (s.advance).pendingKey = s.pendingKey := rfl
@[simp] theorem State.advance_runState : (s.advance).runState = s.runState := rfl
@[simp] theorem State.advance_fault : (s.advance).fault = s.fault := rfl
@[simp] theorem State.advance_plane : (s.advance).plane = s.plane := rfl
@[simp] theorem State.advance_glyphs : (s.advance).glyphs = s.glyphs := rfl
@[simp] theorem State.advance_phase : (s.advance).phase = s.phase := rfl
@[simp] theorem State.advance_lastResult : (s.advance).lastResult = s.lastResult := rfl
@[simp] theorem State.advance_history : (s.advance).history = s.history := rfl
@[simp] theorem State.advance_draws : (s.advance).draws = s.draws := rfl
@[simp] theorem State.advance_script : (s.advance).script = s.script := rfl

@[simp] theorem State.skip_v (c : Bool) : (s.skip c).v = s.v := rfl
@[simp] theorem State.skip_i (c : Bool) : (s.skip c).i = s.i := rfl
@[simp] theorem State.skip_pc (c : Bool) : (s.skip c).pc = if c then s.pc + 4 else s.pc + 2 := rfl
@[simp] theorem State.skip_stack (c : Bool) : (s.skip c).stack = s.stack := rfl
@[simp] theorem State.skip_dt (c : Bool) : (s.skip c).dt = s.dt := rfl
@[simp] theorem State.skip_st (c : Bool) : (s.skip c).st = s.st := rfl
@[simp] theorem State.skip_mem (c : Bool) : (s.skip c).mem = s.mem := rfl
@[simp] theorem State.skip_speed (c : Bool) : (s.skip c).speed = s.speed := rfl
@[simp] theorem State.skip_pause (c : Bool) : (s.skip c).pause = s.pause := rfl
@[simp] theorem State.skip_pendingKey (c : Bool) : (s.skip c).pendingKey = s.pendingKey := rfl
@[simp] theorem State.skip_runState (c : Bool) : (s.skip c).runState = s.runState := rfl
@[simp] theorem State.skip_fault (c : Bool) : (s.skip c).fault = s.fault := rfl
@[simp] theorem State.skip_plane (c : Bool) : (s.skip c).plane = s.plane := rfl
@[simp] theorem State.skip_glyphs (c : Bool) : (s.skip c).glyphs = s.glyphs := rfl
@[simp] theorem State.skip_phase (c : Bool) : (s.skip c).phase = s.phase := rfl
@[simp] theorem State.skip_lastResult (c : Bool) : (s.skip c).lastResult = s.lastResult := rfl
@[simp] theorem State.skip_history (c : Bool) : (s.skip c).history = s.history := rfl
@[simp] theorem State.skip_draws (c : Bool) : (s.skip c).draws = s.draws := rfl
@[simp] theorem State.skip_script (c : Bool) : (s.skip c).script = s.script := rfl

@[simp] theorem State.setDt_v (b : Byte) : (s.setDt b).v = s.v := rfl
@[simp] theorem State.setDt_i (b : Byte) : (s.setDt b).i = s.i := rfl
@[simp] theorem State.setDt_pc (b : Byte) : (s.setDt b).pc = s.pc := rfl
@[simp] theorem State.setDt_stack (b : Byte) : (s.setDt b).stack = s.stack := rfl
@[simp] theorem State.setDt_dt (b : Byte) : (s.setDt b).dt = b := rfl
@[simp] theorem State.setDt_st (b : Byte) : (s.setDt b).st = s.st := rfl
@[simp] theorem State.setDt_mem (b : Byte) : (s.setDt b).mem = s.mem := rfl
@[simp] theorem State.setDt_speed (b : Byte) : (s.setDt b).speed = s.speed := rfl
@[simp] theorem State.setDt_pause (b : Byte) : (s.setDt b).pause = s.pause := rfl
@[simp] theorem State.setDt_pendingKey (b : Byte) : (s.setDt b).pendingKey = s.pendingKey := rfl
@[simp] theorem State.setDt_runState (b : Byte) : (s.setDt b).runState = s.runState := rfl
@[simp] theorem State.setDt_fault (b : Byte) : (s.setDt b).fault = s.fault := rfl
@[simp] theorem State.setDt_plane (b : Byte) : (s.setDt b).plane = s.plane := rfl
@[simp] theorem State.setDt_glyphs (b : Byte) : (s.setDt b).glyphs = s.glyphs := rfl
@[simp] theorem State.setDt_phase (b : Byte) : (s.setDt b).phase = s.phase := rfl
@[simp] theorem State.setDt_lastResult (b : Byte) : (s.setDt b).lastResult = s.lastResult := rfl
@[simp] theorem State.setDt_history (b : Byte) : (s.setDt b).history = s.history := rfl
@[simp] theorem State.setDt_draws (b : Byte) : (s.setDt b).draws = s.draws := rfl
@[simp] theorem State.setDt_script (b : Byte) : (s.setDt b).script = s.script := rfl

@[simp] theorem State.setSt_v (b : Byte) : (s.setSt b).v = s.v := rfl
@[simp] theorem State.setSt_i (b : Byte) : (s.setSt b).i = s.i := rfl
@[simp] theorem State.setSt_pc (b : Byte) : (s.setSt b).pc = s.pc := rfl
@[simp] theorem State.setSt_stack (b : Byte) : (s.setSt b).stack = s.stack := rfl
@[simp] theorem State.setSt_dt (b : Byte) : (s.setSt b).dt = s.dt := rfl
@[simp] theorem State.setSt_st (b : Byte) : (s.setSt b).st = b := rfl
@[simp] theorem State.setSt_mem (b : Byte) : (s.setSt b).mem = s.mem := rfl
@[simp] theorem State.setSt_speed (b : Byte) : (s.setSt b).speed = s.speed := rfl
@[simp] theorem State.setSt_pause (b : Byte) : (s.setSt b).pause = s.pause := rfl
@[simp] theorem State.setSt_pendingKey (b : Byte) : (s.setSt b).pendingKey = s.pendingKey := rfl
@[simp] theorem State.setSt_runState (b : Byte) : (s.setSt b).runState = s.runState := rfl
@[simp] theorem State.setSt_fault (b : Byte) : (s.setSt b).fault = s.fault := rfl
@[simp] theorem State.setSt_plane (b : Byte) : (s.setSt b).plane = s.plane := rfl
@[simp] theorem State.setSt_glyphs (b : Byte) : (s.setSt b).glyphs = s.glyphs := rfl
@[simp] theorem State.setSt_phase (b : Byte) : (s.setSt b).phase = s.phase := rfl
@[simp] theorem State.setSt_lastResult (b : Byte) : (s.setSt b).lastResult = s.lastResult := rfl
@[simp] theorem State.setSt_history (b : Byte) : (s.setSt b).history = s.history := rfl
@[simp] theorem State.setSt_draws (b : Byte) : (s.setSt b).draws = s.draws := rfl
@[simp] theorem State.setSt_script (b : Byte) : (s.setSt b).script = s.script := rfl

@[simp] theorem State.store_v (a : Nat) (bs : List Byte) : (s.store a bs).v = s.v := rfl
@[simp] theorem State.store_i (a : Nat) (bs : List Byte) : (s.store a bs).i = s.i := rfl
@[simp] theorem State.store_pc (a : Nat) (bs : List Byte) : (s.store a bs).pc = s.pc := rfl
@[simp] theorem State.store_stack (a : Nat) (bs : List Byte) : (s.store a bs).stack = s.stack := rfl
@[simp] theorem State.store_dt (a : Nat) (bs : List Byte) : (s.store a bs).dt = s.dt := rfl
@[simp] theorem State.store_st (a : Nat) (bs : List Byte) : (s.store a bs).st = s.st := rfl
@[simp] theorem State.store_mem (a : Nat) (bs : List Byte) : (s.store a bs).mem = Memory.writeBytes s.glyphs s.mem a bs := rfl
@[simp] theorem State.store_speed (a : Nat) (bs : List Byte) : (s.store a bs).speed = s.speed := rfl
@[simp] theorem State.store_pause (a : Nat) (bs : List Byte) : (s.store a bs).pause = s.pause := rfl
@[simp] theorem State.store_pendingKey (a : Nat) (bs : List Byte) : (s.store a bs).pendingKey = s.pendingKey := rfl
@[simp] theorem State.store_runState (a : Nat) (bs : List Byte) : (s.store a bs).runState = s.runState := rfl
@[simp] theorem State.store_fault (a : Nat) (bs : List Byte) : (s.store a bs).fault = s.fault := rfl
@[simp] theorem State.store_plane (a : Nat) (bs : List Byte) : (s.store a bs).plane = s.plane := rfl
@[simp] theorem State.store_glyphs (a : Nat) (bs : List Byte) : (s.store a bs).glyphs = s.glyphs := rfl
@[simp] theorem State.store_phase (a : Nat) (bs : List Byte) : (s.store a bs).phase = s.phase := rfl
@[simp] theorem State.store_lastResult (a : Nat) (bs : List Byte) : (s.store a bs).lastResult = s.lastResult := rfl
@[simp] theorem State.store_history (a : Nat) (bs : List Byte) : (s.store a bs).history = s.history := rfl
@[simp] theorem State.store_draws (a : Nat) (bs : List Byte) : (s.store a bs).draws = s.draws := rfl
@[simp] theorem State.store_script (a : Nat) (bs : List Byte) : (s.store a bs).script = s.script := rfl

@[simp] theorem State.setStack_v (l : List Word) : (s.setStack l).v = s.v := rfl
@[simp] theorem State.setStack_i (l : List Word) : (s.setStack l).i = s.i := rfl
@[simp] theorem State.setStack_pc (l : List Word) : (s.setStack l).pc = s.pc := rfl
@[simp] theorem State.setStack_stack (l : List Word) : (s.setStack l).stack = l := rfl
@[simp] theorem State.setStack_dt (l : List Word) : (s.setStack l).dt = s.dt := rfl
@[simp] theorem State.setStack_st (l : List Word) : (s.setStack l).st = s.st := rfl
@[simp] theorem State.setStack_mem (l : List Word) : (s.setStack l).mem = s.mem := rfl
@[simp] theorem State.setStack_speed (l : List Word) : (s.setStack l).speed = s.speed := rfl
@[simp] theorem State.setStack_pause (l : List Word) : (s.setStack l).pause = s.pause := rfl
@[simp] theorem State.setStack_pendingKey (l : List Word) : (s.setStack l).pendingKey = s.pendingKey := rfl
@[simp] theorem State.setStack_runState (l : List Word) : (s.setStack l).runState = s.runState := rfl
@[simp] theorem State.setStack_fault (l : List Word) : (s.setStack l).fault = s.fault := rfl
@[simp] theorem State.setStack_plane (l : List Word) : (s.setStack l).plane = s.plane := rfl
@[simp] theorem State.setStack_glyphs (l : List Word) : (s.setStack l).glyphs = s.glyphs := rfl
@[simp] theorem State.setStack_phase (l : List Word) : (s.setStack l).phase = s.phase := rfl
@[simp] theorem State.setStack_lastResult (l : List Word) : (s.setStack l).lastResult = s.lastResult := rfl
@[simp] theorem State.setStack_history (l : List Word) : (s.setStack l).history = s.history := rfl
@[simp] theorem State.setStack_draws (l : List Word) : (s.setStack l).draws = s.draws := rfl
@[simp] theorem State.setStack_script (l : List Word) : (s.setStack l).script = s.script := rfl

@[simp] theorem State.setPlane_v (p : Plane) : (s.setPlane p).v = s.v := rfl
@[simp] theorem State.setPlane_i (p : Plane) : (s.setPlane p).i = s.i := rfl
@[simp] theorem State.setPlane_pc (p : Plane) : (s.setPlane p).pc = s.pc := rfl
@[simp] theorem State.setPlane_stack (p : Plane) : (s.setPlane p).stack = s.stack := rfl
@[simp] theorem State.setPlane_dt (p : Plane) : (s.setPlane p).dt = s.dt := rfl
@[simp] theorem State.setPlane_st (p : Plane) : (s.setPlane p).st = s.st := rfl
@[simp] theorem State.setPlane_mem (p : Plane) : (s.setPlane p).mem = s.mem := rfl
@[simp] theorem State.setPlane_speed (p : Plane) : (s.setPlane p).speed = s.speed := rfl
@[simp] theorem State.setPlane_pause (p : Plane) : (s.setPlane p).pause = s.pause := rfl
@[simp] theorem State.setPlane_pendingKey (p : Plane) : (s.setPlane p).pendingKey = s.pendingKey := rfl
@[simp] theorem State.setPlane_runState (p : Plane) : (s.setPlane p).runState = s.runState := rfl
@[simp] theorem State.setPlane_fault (p : Plane) : (s.setPlane p).fault = s.fault := rfl
@[simp] theorem State.setPlane_plane (p : Plane) : (s.setPlane p).plane = p := rfl
@[simp] theorem State.setPlane_glyphs (p : Plane) : (s.setPlane p).glyphs = s.glyphs := rfl
@[simp] theorem State.setPlane_phase (p : Plane) : (s.setPlane p).phase = s.phase := rfl
@[simp] theorem State.setPlane_lastResult (p : Plane) : (s.setPlane p).lastResult = s.lastResult := rfl
@[simp] theorem State.setPlane_history (p : Plane) : (s.setPlane p).history = s.history := rfl
@[simp] theorem State.setPlane_draws (p : Plane) : (s.setPlane p).draws = s.draws := rfl
@[simp] theorem State.setPlane_script (p : Plane) : (s.setPlane p).script = s.script := rfl

@[simp] theorem State.emit_v (es : List PortEvent) : (s.emit es).v = s.v := rfl
@[simp] theorem State.emit_i (es : List PortEvent) : (s.emit es).i = s.i := rfl
@[simp] theorem State.emit_pc (es : List PortEvent) : (s.emit es).pc = s.pc := rfl
@[simp] theorem State.emit_stack (es : List PortEvent) : (s.emit es).stack = s.stack := rfl
@[simp] theorem State.emit_dt (es : List PortEvent) : (s.emit es).dt = s.dt := rfl
@[simp] theorem State.emit_st (es : List PortEvent) : (s.emit es).st = s.st := rfl
@[simp] theorem State.emit_mem (es : List PortEvent) : (s.emit es).mem = s.mem := rfl
@[simp] theorem State.emit_speed (es : List PortEvent) : (s.emit es).speed = s.speed := rfl
@[simp] theorem State.emit_pause (es : List PortEvent) : (s.emit es).pause = s.pause := rfl
@[simp] theorem State.emit_pendingKey (es : List PortEvent) : (s.emit es).pendingKey = s.pendingKey := rfl
@[simp] theorem State.emit_runState (es : List PortEvent) : (s.emit es).runState = s.runState := rfl
@[simp] theorem State.emit_fault (es : List PortEvent) : (s.emit es).fault = s.fault := rfl
@[simp] theorem State.emit_plane (es : List PortEvent) : (s.emit es).plane = s.plane := rfl
@[simp] theorem State.emit_glyphs (es : List PortEvent) : (s.emit es).glyphs = s.glyphs := rfl
@[simp] theorem State.emit_phase (es : List PortEvent) : (s.emit es).phase = s.phase := rfl
@[simp] theorem State.emit_lastResult (es : List PortEvent) : (s.emit es).lastResult = s.lastResult := rfl
@[simp] theorem State.emit_history (es : List PortEvent) : (s.emit es).history = es.reverse ++ s.history := rfl
@[simp] theorem State.emit_draws (es : List PortEvent) : (s.emit es).draws = s.draws := rfl
@[simp] theorem State.emit_script (es : List PortEvent) : (s.emit es).script = s.script := rfl

@[simp] theorem State.consumeDraw_v : (s.consumeDraw).v = s.v := rfl
@[simp] theorem State.consumeDraw_i : (s.consumeDraw).i = s.i := rfl
@[simp] theorem State.consumeDraw_pc : (s.consumeDraw).pc = s.pc := rfl
@[simp] theorem State.consumeDraw_stack : (s.consumeDraw).stack = s.stack := rfl
@[simp] theorem State.consumeDraw_dt : (s.consumeDraw).dt = s.dt := rfl
@[simp] theorem State.consumeDraw_st : (s.consumeDraw).st = s.st := rfl
@[simp] theorem State.consumeDraw_mem : (s.consumeDraw).mem = s.mem := rfl
@[simp] theorem State.consumeDraw_speed : (s.consumeDraw).speed = s.speed := rfl
@[simp] theorem State.consumeDraw_pause : (s.consumeDraw).pause = s.pause := rfl
@[simp] theorem State.consumeDraw_pendingKey : (s.consumeDraw).pendingKey = s.pendingKey := rfl
@[simp] theorem State.consumeDraw_runState : (s.consumeDraw).runState = s.runState := rfl
@[simp] theorem State.consumeDraw_fault : (s.consumeDraw).fault = s.fault := rfl
@[simp] theorem State.consumeDraw_plane : (s.consumeDraw).plane = s.plane := rfl
@[simp] theorem State.consumeDraw_glyphs : (s.consumeDraw).glyphs = s.glyphs := rfl
@[simp] theorem State.consumeDraw_phase : (s.consumeDraw).phase = s.phase := rfl
@[simp] theorem State.consumeDraw_lastResult : (s.consumeDraw).lastResult = s.lastResult := rfl
@[simp] theorem State.consumeDraw_history : (s.consumeDraw).history = s.history := rfl
@[simp] theorem State.consumeDraw_draws : (s.consumeDraw).draws = s.draws + 1 := rfl
@[simp] theorem State.consumeDraw_script : (s.consumeDraw).script = s.script := rfl

@[simp] theorem State.awaitKey_v (x : Reg) : (s.awaitKey x).v = s.v := rfl
@[simp] theorem State.awaitKey_i (x : Reg) : (s.awaitKey x).i = s.i := rfl
@[simp] theorem State.awaitKey_pc (x : Reg) : (s.awaitKey x).pc = s.pc := rfl
@[simp] theorem State.awaitKey_stack (x : Reg) : (s.awaitKey x).stack = s.stack := rfl
@[simp] theorem State.awaitKey_dt (x : Reg) : (s.awaitKey x).dt = s.dt := rfl
@[simp] theorem State.awaitKey_st (x : Reg) : (s.awaitKey x).st = s.st := rfl
@[simp] theorem State.awaitKey_mem (x : Reg) : (s.awaitKey x).mem = s.mem := rfl
@[simp] theorem State.awaitKey_speed (x : Reg) : (s.awaitKey x).speed = s.speed := rfl
@[simp] theorem State.awaitKey_pause (x : Reg) : (s.awaitKey x).pause = true := rfl
@[simp] theorem State.awaitKey_pendingKey (x : Reg) : (s.awaitKey x).pendingKey = some x := rfl
@[simp] theorem State.awaitKey_runState (x : Reg) : (s.awaitKey x).runState = s.runState := rfl
@[simp] theorem State.awaitKey_fault (x : Reg) : (s.awaitKey x).fault = s.fault := rfl
@[simp] theorem State.awaitKey_plane (x : Reg) : (s.awaitKey x).plane = s.plane := rfl
@[simp] theorem State.awaitKey_glyphs (x : Reg) : (s.awaitKey x).glyphs = s.glyphs := rfl
@[simp] theorem State.awaitKey_phase (x : Reg) : (s.awaitKey x).phase = s.phase := rfl
@[simp] theorem State.awaitKey_lastResult (x : Reg) : (s.awaitKey x).lastResult = s.lastResult := rfl
@[simp] theorem State.awaitKey_history (x : Reg) : (s.awaitKey x).history = s.history := rfl
@[simp] theorem State.awaitKey_draws (x : Reg) : (s.awaitKey x).draws = s.draws := rfl
@[simp] theorem State.awaitKey_script (x : Reg) : (s.awaitKey x).script = s.script := rfl

@[simp] theorem State.withPhase_v (p : Phase) : (s.withPhase p).v = s.v := rfl
@[simp] theorem State.withPhase_i (p : Phase) : (s.withPhase p).i = s.i := rfl
@[simp] theorem State.withPhase_pc (p : Phase) : (s.withPhase p).pc = s.pc := rfl
@[simp] theorem State.withPhase_stack (p : Phase) : (s.withPhase p).stack = s.stack := rfl
@[simp] theorem State.withPhase_dt (p : Phase) : (s.withPhase p).dt = s.dt := rfl
@[simp] theorem State.withPhase_st (p : Phase) : (s.withPhase p).st = s.st := rfl
@[simp] theorem State.withPhase_mem (p : Phase) : (s.withPhase p).mem = s.mem := rfl
@[simp] theorem State.withPhase_speed (p : Phase) : (s.withPhase p).speed = s.speed := rfl
@[simp] theorem State.withPhase_pause (p : Phase) : (s.withPhase p).pause = s.pause := rfl
@[simp] theorem State.withPhase_pendingKey (p : Phase) : (s.withPhase p).pendingKey = s.pendingKey := rfl
@[simp] theorem State.withPhase_runState (p : Phase) : (s.withPhase p).runState = s.runState := rfl
@[simp] theorem State.withPhase_fault (p : Phase) : (s.withPhase p).fault = s.fault := rfl
@[simp] theorem State.withPhase_plane (p : Phase) : (s.withPhase p).plane = s.plane := rfl
@[simp] theorem State.withPhase_glyphs (p : Phase) : (s.withPhase p).glyphs = s.glyphs := rfl
@[simp] theorem State.withPhase_phase (p : Phase) : (s.withPhase p).phase = p := rfl
@[simp] theorem State.withPhase_lastResult (p : Phase) : (s.withPhase p).lastResult = s.lastResult := rfl
@[simp] theorem State.withPhase_history (p : Phase) : (s.withPhase p).history = s.history := rfl
@[simp] theorem State.withPhase_draws (p : Phase) : (s.withPhase p).draws = s.draws := rfl
@[simp] theorem State.withPhase_script (p : Phase) : (s.withPhase p).script = s.script := rfl

@[simp] theorem State.takeFault_v (f : Fault) : (s.takeFault f).v = s.v := rfl
@[simp] theorem State.takeFault_i (f : Fault) : (s.takeFault f).i = s.i := rfl
@[simp] theorem State.takeFault_pc (f : Fault) : (s.takeFault f).pc = s.pc := rfl
@[simp] theorem State.takeFault_stack (f : Fault) : (s.takeFault f).stack = s.stack := rfl
@[simp] theorem State.takeFault_dt (f : Fault) : (s.takeFault f).dt = s.dt := rfl
@[simp] theorem State.takeFault_st (f : Fault) : (s.takeFault f).st = s.st := rfl
@[simp] theorem State.takeFault_mem (f : Fault) : (s.takeFault f).mem = s.mem := rfl
@[simp] theorem State.takeFault_speed (f : Fault) : (s.takeFault f).speed = s.speed := rfl
@[simp] theorem State.takeFault_pause (f : Fault) : (s.takeFault f).pause = s.pause := rfl
@[simp] theorem State.takeFault_pendingKey (f : Fault) : (s.takeFault f).pendingKey = s.pendingKey := rfl
@[simp] theorem State.takeFault_runState (f : Fault) : (s.takeFault f).runState = .faulted := rfl
@[simp] theorem State.takeFault_fault (f : Fault) : (s.takeFault f).fault = some f := rfl
@[simp] theorem State.takeFault_plane (f : Fault) : (s.takeFault f).plane = s.plane := rfl
@[simp] theorem State.takeFault_glyphs (f : Fault) : (s.takeFault f).glyphs = s.glyphs := rfl
@[simp] theorem State.takeFault_phase (f : Fault) : (s.takeFault f).phase = .between := rfl
@[simp] theorem State.takeFault_lastResult (f : Fault) : (s.takeFault f).lastResult = some (.fault f) := rfl
@[simp] theorem State.takeFault_history (f : Fault) : (s.takeFault f).history = s.history := rfl
@[simp] theorem State.takeFault_draws (f : Fault) : (s.takeFault f).draws = s.draws := rfl
@[simp] theorem State.takeFault_script (f : Fault) : (s.takeFault f).script = s.script := rfl

@[simp] theorem State.hostReset_v : s.hostReset.v = Vector.replicate 16 0 := rfl
@[simp] theorem State.hostReset_i : s.hostReset.i = 0 := rfl
@[simp] theorem State.hostReset_pc : s.hostReset.pc = 0x200 := rfl
@[simp] theorem State.hostReset_stack : s.hostReset.stack = [] := rfl
@[simp] theorem State.hostReset_dt : s.hostReset.dt = 0 := rfl
@[simp] theorem State.hostReset_st : s.hostReset.st = 0 := rfl
@[simp] theorem State.hostReset_mem : s.hostReset.mem = [] := rfl
@[simp] theorem State.hostReset_speed : s.hostReset.speed = s.speed := rfl
@[simp] theorem State.hostReset_pause : s.hostReset.pause = false := rfl
@[simp] theorem State.hostReset_pendingKey : s.hostReset.pendingKey = none := rfl
@[simp] theorem State.hostReset_runState : s.hostReset.runState = .idle := rfl
@[simp] theorem State.hostReset_fault : s.hostReset.fault = none := rfl
@[simp] theorem State.hostReset_plane : s.hostReset.plane = s.plane := rfl
@[simp] theorem State.hostReset_glyphs : s.hostReset.glyphs = s.glyphs := rfl
@[simp] theorem State.hostReset_phase : s.hostReset.phase = .between := rfl
@[simp] theorem State.hostReset_lastResult : s.hostReset.lastResult = s.lastResult := rfl
@[simp] theorem State.hostReset_history : s.hostReset.history = s.history := rfl
@[simp] theorem State.hostReset_draws : s.hostReset.draws = s.draws := rfl
@[simp] theorem State.hostReset_script : s.hostReset.script = s.script := rfl

/-- Reading a register after a register write. -/
theorem State.reg_setReg (x r : Reg) (b : Byte) : (s.setReg x b).reg r = if r = x then b else s.reg r := by
  simp only [State.reg, State.setReg_v, Vector.getElem_set, Fin.ext_iff, eq_comm (a := r.val)]

@[simp] theorem State.reg_setReg_self (x : Reg) (b : Byte) : (s.setReg x b).reg x = b := by
  simp [State.reg_setReg]

theorem State.reg_setReg_other (x r : Reg) (b : Byte) (h : r ≠ x) : (s.setReg x b).reg r = s.reg r := by
  simp [State.reg_setReg, h]

@[simp] theorem State.reg_hostReset (r : Reg) : s.hostReset.reg r = 0 := by
  simp [State.reg]

@[simp] theorem State.reg_setI (w : Word) (r : Reg) : (s.setI w).reg r = s.reg r := rfl
@[simp] theorem State.reg_jump (w : Word) (r : Reg) : (s.jump w).reg r = s.reg r := rfl
@[simp] theorem State.reg_advance (r : Reg) : (s.advance).reg r = s.reg r := rfl
@[simp] theorem State.reg_skip (c : Bool) (r : Reg) : (s.skip c).reg r = s.reg r := rfl
@[simp] theorem State.reg_setDt (b : Byte) (r : Reg) : (s.setDt b).reg r = s.reg r := rfl
@[simp] theorem State.reg_setSt (b : Byte) (r : Reg) : (s.setSt b).reg r = s.reg r := rfl
@[simp] theorem State.reg_store (a : Nat) (bs : List Byte) (r : Reg) : (s.store a bs).reg r = s.reg r := rfl
@[simp] theorem State.reg_setStack (l : List Word) (r : Reg) : (s.setStack l).reg r = s.reg r := rfl
@[simp] theorem State.reg_setPlane (p : Plane) (r : Reg) : (s.setPlane p).reg r = s.reg r := rfl
@[simp] theorem State.reg_emit (es : List PortEvent) (r : Reg) : (s.emit es).reg r = s.reg r := rfl
@[simp] theorem State.reg_consumeDraw (r : Reg) : (s.consumeDraw).reg r = s.reg r := rfl
@[simp] theorem State.reg_awaitKey (x : Reg) (r : Reg) : (s.awaitKey x).reg r = s.reg r := rfl
@[simp] theorem State.reg_withPhase (p : Phase) (r : Reg) : (s.withPhase p).reg r = s.reg r := rfl
@[simp] theorem State.reg_takeFault (f : Fault) (r : Reg) : (s.takeFault f).reg r = s.reg r := rfl

@[simp] theorem State.byte_setReg (x : Reg) (b : Byte) (k : Nat) : (s.setReg x b).byte k = s.byte k := rfl
@[simp] theorem State.byte_setRegs (v : RegFile) (k : Nat) : (s.setRegs v).byte k = s.byte k := rfl
@[simp] theorem State.byte_setI (w : Word) (k : Nat) : (s.setI w).byte k = s.byte k := rfl
@[simp] theorem State.byte_jump (w : Word) (k : Nat) : (s.jump w).byte k = s.byte k := rfl
@[simp] theorem State.byte_advance (k : Nat) : (s.advance).byte k = s.byte k := rfl
@[simp] theorem State.byte_skip (c : Bool) (k : Nat) : (s.skip c).byte k = s.byte k := rfl
@[simp] theorem State.byte_setDt (b : Byte) (k : Nat) : (s.setDt b).byte k = s.byte k := rfl
@[simp] theorem State.byte_setSt (b : Byte) (k : Nat) : (s.setSt b).byte k = s.byte k := rfl
@[simp] theorem State.byte_setStack (l : List Word) (k : Nat) : (s.setStack l).byte k = s.byte k := rfl
@[simp] theorem State.byte_setPlane (p : Plane) (k : Nat) : (s.setPlane p).byte k = s.byte k := rfl
@[simp] theorem State.byte_emit (es : List PortEvent) (k : Nat) : (s.emit es).byte k = s.byte k := rfl
@[simp] theorem State.byte_consumeDraw (k : Nat) : (s.consumeDraw).byte k = s.byte k := rfl
@[simp] theorem State.byte_awaitKey (x : Reg) (k : Nat) : (s.awaitKey x).byte k = s.byte k := rfl
@[simp] theorem State.byte_withPhase (p : Phase) (k : Nat) : (s.withPhase p).byte k = s.byte k := rfl
@[simp] theorem State.byte_takeFault (f : Fault) (k : Nat) : (s.takeFault f).byte k = s.byte k := rfl
@[simp] theorem State.wordAt_withPhase (p : Phase) (k : Nat) : (s.withPhase p).wordAt k = s.wordAt k := rfl
@[simp] theorem State.byte_hostReset (k : Nat) : s.hostReset.byte k = Memory.initial s.glyphs k := rfl

end Sys2Proof.Machine
end

