-- ==== Sys2Proof/Laws/Flags.lean ====
section
/-!
SUPPORT. The writeback of result and flag: it is in the order P_VF_DEST names, and it writes no register but V[x] and VF.
-/

namespace Sys2Proof.Machine

/-- For x other than 0xF the order of the two writes does not matter (R141). -/
theorem State.writebackIn_order (s : State) (d e : Config.VfDest) (x : Reg) (r f : Byte) (h : x ≠ 15) :
    s.writebackIn d x r f = s.writebackIn e x r f := by
  have hx : x.val ≠ 15 := fun h' => h (Fin.ext h')
  have key : (s.setReg x r).setReg 15 f = (s.setReg 15 f).setReg x r := by
    simp only [State.setReg]
    congr 1
    exact Vector.set_comm r f hx
  cases d <;> cases e <;> simp [State.writebackIn, key]

/-- writeback is in the order P_VF_DEST names, whatever x is (R141). -/
theorem State.writeback_eq (s : State) (x : Reg) (r f : Byte) : s.writeback x r f = s.writebackIn Config.vfDest x r f := by
  unfold State.writeback
  split
  · rfl
  · exact s.writebackIn_order _ _ x r f ‹_›

/-- Both writes, when x is not 0xF. -/
theorem State.writeback_reg_ne (s : State) (x : Reg) (r f : Byte) (h : x ≠ 15) :
    (s.writeback x r f).reg x = r ∧ (s.writeback x r f).reg 15 = f := by
  simp [State.writeback, h, State.writebackIn, State.reg_setReg]

/-- VF after the writeback when x is 0xF: the flag or the result, as P_VF_DEST says (R141). -/
theorem State.writeback_reg_15 (s : State) (r f : Byte) :
    (s.writeback 15 r f).reg 15 = match Config.vfDest with | .flagLast => f | .resultLast => r := by
  rw [State.writeback_eq]
  cases Config.vfDest <;> simp [State.writebackIn]

/-- No other register is written. -/
theorem State.writeback_reg_other (s : State) (x q : Reg) (r f : Byte) (hx : q ≠ x) (h15 : q ≠ 15) :
    (s.writeback x r f).reg q = s.reg q := by
  rw [State.writeback_eq]
  cases Config.vfDest <;> simp [State.writebackIn, State.reg_setReg, hx, h15]

/-- Only registers are written. -/
theorem State.writeback_frame (s : State) (x : Reg) (r f : Byte) :
    s.writeback x r f = { s with v := (s.writeback x r f).v } := by
  rw [State.writeback_eq]
  cases Config.vfDest <;> rfl

end Sys2Proof.Machine
end

