-- ==== Sys2Proof/Laws/Memory.lean ====
section
/-!
SUPPORT. Memory: a read after a write, at the same address and at another, and the canonical form, which every operation keeps.
-/

namespace Sys2Proof.Machine

variable (g : GlyphTable)

/-! ### Reading after writing -/

@[simp] theorem Memory.read_nil (a : Nat) : Memory.read g [] a = Memory.initial g a := rfl

theorem Memory.read_drop (m : Memory) (a b : Nat) :
    Memory.read g (Memory.drop a m) b = if b = a then Memory.initial g b else Memory.read g m b := by
  induction m with
  | nil => simp [Memory.drop]
  | cons c rest ih =>
    obtain ⟨a', v⟩ := c
    by_cases h : a' = a
    · simp only [Memory.drop, h, if_true, ih, Memory.read, eq_comm (a := a)]
      split <;> simp_all
    · simp only [Memory.drop, h, if_false, Memory.read, ih]
      split
      · simp_all
      · rfl

theorem Memory.read_place_drop (m : Memory) (a b : Nat) (v : Byte) :
    Memory.read g (Memory.place a v (Memory.drop a m)) b = if b = a then v else Memory.read g m b := by
  have key : ∀ m' : Memory, (∀ c ∈ m', c.1 ≠ a) → Memory.read g (Memory.place a v m') b = if b = a then v else Memory.read g m' b := by
    intro m'
    induction m' with
    | nil => intro _; simp [Memory.place, Memory.read, eq_comm]
    | cons c rest ih =>
      intro h
      obtain ⟨a', w⟩ := c
      have ha' : a' ≠ a := h (a', w) (by simp)
      have hr : ∀ c ∈ rest, c.1 ≠ a := fun c hc => h c (by simp [hc])
      by_cases hlt : a < a'
      · simp only [Memory.place, hlt, if_true, Memory.read]
        by_cases hb : b = a
        · simp [hb]
        · simp [hb, eq_comm (a := a)]
      · simp only [Memory.place, hlt, if_false, Memory.read, ih hr]
        by_cases hb : a' = b
        · have : b ≠ a := hb ▸ ha'
          simp [hb, this]
        · simp [hb]
  have hdrop : ∀ c ∈ Memory.drop a m, c.1 ≠ a := by
    clear key
    induction m with
    | nil => simp [Memory.drop]
    | cons c rest ih =>
      obtain ⟨a', w⟩ := c
      by_cases h : a' = a
      · simpa [Memory.drop, h] using ih
      · intro c hc
        simp only [Memory.drop, h, if_false, List.mem_cons] at hc
        rcases hc with rfl | hc
        · exact h
        · exact ih c hc
  rw [key _ hdrop, Memory.read_drop]
  split <;> simp_all

/-- A read after a write: the byte written at its address, and every other address as before (R66, R70). -/
theorem Memory.read_write (m : Memory) (a b : Nat) (v : Byte) (ha : a < Config.memSize) :
    Memory.read g (Memory.write g m a v) b = if b = a then v else Memory.read g m b := by
  simp only [Memory.write, ha, if_true]
  by_cases hv : v = Memory.initial g a
  · simp only [hv, if_true, Memory.read_drop]
    split <;> simp_all
  · simp only [hv, if_false, Memory.read_place_drop]

/-- A write leaves every other address as it was. -/
theorem Memory.read_write_other (m : Memory) (a b : Nat) (v : Byte) (h : b ≠ a) : Memory.read g (Memory.write g m a v) b = Memory.read g m b := by
  by_cases ha : a < Config.memSize
  · simp [Memory.read_write g m a b v ha, h]
  · simp [Memory.write, ha]

/-- Reading after a run of bytes was stored, all of it inside memory. -/
theorem Memory.read_writeBytes (bs : List Byte) (m : Memory) (a b : Nat) (h : a + bs.length ≤ Config.memSize) :
    Memory.read g (Memory.writeBytes g m a bs) b = if a ≤ b ∧ b < a + bs.length then bs.getD (b - a) 0 else Memory.read g m b := by
  induction bs generalizing m a with
  | nil =>
    simp [Memory.writeBytes]
  | cons v rest ih =>
    simp only [List.length_cons] at h
    have ha : a < Config.memSize := by omega
    simp only [Memory.writeBytes, ih (Memory.write g m a v) (a + 1) (by omega), Memory.read_write g m a b v ha, List.length_cons]
    by_cases h1 : b = a
    · have : ¬ (a + 1 ≤ b ∧ b < a + 1 + rest.length) := by omega
      simp [h1]
    · by_cases h2 : a + 1 ≤ b ∧ b < a + 1 + rest.length
      · have h3 : a ≤ b ∧ b < a + (rest.length + 1) := by omega
        have h4 : b - a = (b - (a + 1)) + 1 := by omega
        simp only [h2, h3, and_self, if_true, h4, List.getD_cons_succ]
      · have h3 : ¬ (a ≤ b ∧ b < a + (rest.length + 1)) := by omega
        simp only [h1, h2, h3, if_false]

/-- Storing bytes leaves every address outside them as it was. -/
theorem Memory.read_writeBytes_outside (bs : List Byte) (m : Memory) (a b : Nat) (h : b < a ∨ a + bs.length ≤ b) :
    Memory.read g (Memory.writeBytes g m a bs) b = Memory.read g m b := by
  induction bs generalizing m a with
  | nil => rfl
  | cons v rest ih =>
    simp only [List.length_cons] at h
    rw [Memory.writeBytes, ih _ _ (by omega), Memory.read_write_other g _ _ _ _ (by omega)]

@[simp] theorem Memory.readBytes_length (m : Memory) (a n : Nat) : (Memory.readBytes g m a n).length = n := by
  induction n generalizing a with
  | zero => rfl
  | succ n ih => simp [Memory.readBytes, ih]

theorem Memory.readBytes_getElem (m : Memory) (a n k : Nat) (h : k < (Memory.readBytes g m a n).length) :
    (Memory.readBytes g m a n)[k] = Memory.read g m (a + k) := by
  induction n generalizing a k with
  | zero => simp [Memory.readBytes] at h
  | succ n ih =>
    cases k with
    | zero => rfl
    | succ k =>
      simp only [Memory.readBytes, List.getElem_cons_succ]
      rw [ih]
      congr 1
      omega

/-! ### The canonical form -/

theorem Memory.wfFrom_mono (m : Memory) (lo lo' : Nat) (h : lo' ≤ lo) (hm : Memory.wfFrom g lo m = true) :
    Memory.wfFrom g lo' m = true := by
  cases m with
  | nil => rfl
  | cons c rest =>
    simp only [Memory.wfFrom, Bool.and_eq_true, decide_eq_true_eq] at hm ⊢
    exact ⟨⟨⟨h.trans hm.1.1.1, hm.1.1.2⟩, hm.1.2⟩, hm.2⟩

theorem Memory.wfFrom_drop (m : Memory) (lo a : Nat) (hm : Memory.wfFrom g lo m = true) :
    Memory.wfFrom g lo (Memory.drop a m) = true := by
  induction m generalizing lo with
  | nil => rfl
  | cons c rest ih =>
    obtain ⟨a', v⟩ := c
    simp only [Memory.wfFrom, Bool.and_eq_true, decide_eq_true_eq] at hm
    by_cases h : a' = a
    · simp only [Memory.drop, h, if_true]
      exact ih lo (Memory.wfFrom_mono g rest (a' + 1) lo (by omega) hm.2)
    · simp only [Memory.drop, h, if_false, Memory.wfFrom, Bool.and_eq_true, decide_eq_true_eq]
      exact ⟨hm.1, ih _ hm.2⟩

theorem Memory.wfFrom_place_drop (m : Memory) (lo a : Nat) (v : Byte) (hm : Memory.wfFrom g lo m = true) (hlo : lo ≤ a)
    (ha : a < Config.memSize) (hv : v ≠ Memory.initial g a) : Memory.wfFrom g lo (Memory.place a v (Memory.drop a m)) = true := by
  induction m generalizing lo with
  | nil => simp [Memory.drop, Memory.place, Memory.wfFrom, hlo, ha, hv]
  | cons c rest ih =>
    obtain ⟨a', w⟩ := c
    simp only [Memory.wfFrom, Bool.and_eq_true, decide_eq_true_eq] at hm
    obtain ⟨⟨⟨h1, h2⟩, h3⟩, h4⟩ := hm
    by_cases h : a' = a
    · simp only [Memory.drop, h, if_true]
      exact ih lo (Memory.wfFrom_mono g rest (a' + 1) lo (by omega) h4) hlo
    · simp only [Memory.drop, h, if_false]
      by_cases hlt : a < a'
      · have := Memory.wfFrom_drop g rest (a' + 1) a h4
        simp only [Memory.place, hlt, if_true, Memory.wfFrom, Bool.and_eq_true, decide_eq_true_eq]
        exact ⟨⟨⟨hlo, ha⟩, hv⟩, ⟨⟨by omega, h2⟩, h3⟩, this⟩
      · simp only [Memory.place, hlt, if_false, Memory.wfFrom, Bool.and_eq_true, decide_eq_true_eq]
        exact ⟨⟨⟨h1, h2⟩, h3⟩, ih (a' + 1) h4 (by omega)⟩

/-- A write keeps the canonical form. -/
theorem Memory.wf_write (m : Memory) (a : Nat) (v : Byte) (hm : Memory.wf g m = true) : Memory.wf g (Memory.write g m a v) = true := by
  unfold Memory.write
  split
  · split
    · exact Memory.wfFrom_drop g m 0 a hm
    · exact Memory.wfFrom_place_drop g m 0 a v hm (Nat.zero_le _) ‹_› ‹_›
  · exact hm

/-- Storing bytes keeps the canonical form. -/
theorem Memory.wf_writeBytes (bs : List Byte) (m : Memory) (a : Nat) (hm : Memory.wf g m = true) : Memory.wf g (Memory.writeBytes g m a bs) = true := by
  induction bs generalizing m a with
  | nil => exact hm
  | cons v rest ih => exact ih _ _ (Memory.wf_write g m a v hm)

@[simp] theorem Memory.wf_nil : Memory.wf g [] = true := rfl

/-- The fetched word as a number: the byte at the lower address is the more significant half (R62). -/
theorem wordOfBytes_toNat (hi lo : Byte) : (wordOfBytes hi lo).toNat = hi.toNat * 256 + lo.toNat := by
  have h1 := hi.isLt
  have h2 := lo.isLt
  simp only [wordOfBytes, BitVec.toNat_append]
  rw [← Nat.shiftLeft_add_eq_or_of_lt h2, Nat.shiftLeft_eq]

/-! ### The block's memory -/

variable (s : State)

/-- A stored range inside memory reads as the stored bytes, and every other address as before. -/
theorem State.byte_store (a : Nat) (bs : List Byte) (b : Nat) (h : a + bs.length ≤ 0x1000) :
    (s.store a bs).byte b = if a ≤ b ∧ b < a + bs.length then bs.getD (b - a) 0 else s.byte b :=
  Memory.read_writeBytes s.glyphs bs s.mem a b h

/-- Storing leaves every address outside the range as it was. -/
theorem State.byte_store_outside (a : Nat) (bs : List Byte) (b : Nat) (h : b < a ∨ a + bs.length ≤ b) :
    (s.store a bs).byte b = s.byte b :=
  Memory.read_writeBytes_outside s.glyphs bs s.mem a b h

/-- Storing keeps the canonical form. -/
theorem State.wf_store (a : Nat) (bs : List Byte) (h : Memory.wf s.glyphs s.mem = true) :
    Memory.wf (s.store a bs).glyphs (s.store a bs).mem = true :=
  Memory.wf_writeBytes s.glyphs bs s.mem a h

@[simp] theorem State.bytes_length (a n : Nat) : (s.bytes a n).length = n := Memory.readBytes_length s.glyphs s.mem a n

theorem State.bytes_getElem (a n k : Nat) (h : k < (s.bytes a n).length) : (s.bytes a n)[k] = s.byte (a + k) :=
  Memory.readBytes_getElem s.glyphs s.mem a n k h

/-- The reset contents at a glyph address (R272). -/
theorem Memory.initial_glyph (a : Nat) (h : a < 0x050) : Memory.initial g a = g[a] := dif_pos h

/-- The reset contents above the glyphs (R40). -/
theorem Memory.initial_zero (a : Nat) (h : 0x050 ≤ a) : Memory.initial g a = 0 := dif_neg (Nat.not_lt.2 h)

end Sys2Proof.Machine
end

