-- ==== Sys2Proof/Laws/Plane.lean ====
section
/-!
SUPPORT. The pixel plane: what set_pixel and clear leave, one pixel at a time.
-/

namespace Sys2Proof.Machine

/-- Coordinates wrap (R36). -/
theorem pixel_mod (p : Plane) (x y : Nat) : pixel p (x % 64) (y % 32) = pixel p x y := by
  simp [pixel]

/-- After `clear()` every pixel is 0 (R36). -/
@[simp] theorem pixel_blankPlane (x y : Nat) : pixel blankPlane x y = false := by
  simp [pixel, blankPlane]

/-- set_pixel XORs its bit into its pixel and leaves every other pixel alone (R36). -/
theorem pixel_setPixel (p : Plane) (x y : Nat) (bit : Bool) (x' y' : Nat) :
    pixel (setPixel p x y bit).1 x' y' =
      (pixel p x' y' ^^ (decide (x' % 64 = x % 64 ∧ y' % 32 = y % 32) && bit)) := by
  simp only [pixel, setPixel, Vector.getElem_set]
  by_cases hy : y % 32 = y' % 32
  · have hx' : x' % 64 < 64 := Nat.mod_lt _ (by decide)
    cases bit
    · simp [hy]
    · simp [hy, hx']
  · have : ¬ (y' % 32 = y % 32) := fun h => hy h.symm
    simp [hy, this]

/-- set_pixel answers whether a set pixel was cleared (R36). -/
theorem setPixel_collision (p : Plane) (x y : Nat) (bit : Bool) : (setPixel p x y bit).2 = (pixel p x y && bit) := rfl

@[simp] theorem rowCalls_length (px py row : Nat) (b : Byte) : (rowCalls px py row b).length = 8 := by
  simp [rowCalls]

/-- A sprite of n rows makes 8n calls (R202). -/
theorem spriteCalls_length (px py row : Nat) (bs : List Byte) : (spriteCalls px py row bs).length = 8 * bs.length := by
  induction bs generalizing row with
  | nil => rfl
  | cons b rest ih => simp [spriteCalls, ih]; omega

end Sys2Proof.Machine
end

