-- ==== Sys2Proof/Laws/Operands.lean ====
section
/-!
SUPPORT. The operand forms: everything the range check can do, and the register lists of the bulk transfers byte by byte.
-/

namespace Sys2Proof.Machine

/-- The range check passes: the whole range lies below 0x1000 (R61). -/
theorem outOfRange_eq_false (a : Word) (n : Nat) : outOfRange a n = false ↔ a.toNat + n - 1 ≤ 0xFFF := by
  simp [outOfRange]

/-- A checked access answers `t`, its range inside memory, or takes MemoryOutOfRange from the state before (R61, R238). -/
theorem State.checked_cases (s : State) (a : Word) (n : Nat) (t : State) :
    (a.toNat + n - 1 ≤ 0xFFF ∧ s.checked a n t = .next t) ∨
    (0xFFF < a.toNat + n - 1 ∧ s.checked a n t = .next (s.takeFault (.memoryOutOfRange s.pc (faultAddr a)))) := by
  unfold State.checked outOfRange raise
  by_cases h : 0xFFF < a.toNat + n - 1
  · right; simp [h]
  · left; simp [h]; omega

/-- The reported address is the larger of `a` and 0x1000 (R61). -/
theorem faultAddr_toNat (a : Word) : (faultAddr a).toNat = max a.toNat 0x1000 := by
  unfold faultAddr
  split
  · simp; omega
  · omega

@[simp] theorem zext16_toNat (nnn : Addr12) : (zext16 nnn).toNat = nnn.toNat := by
  have := nnn.isLt
  simp only [zext16, BitVec.toNat_setWidth]
  omega

@[simp] theorem State.lowRegs_length (s : State) (x : Reg) : (s.lowRegs x).length = x.val + 1 := by
  have := x.isLt
  simp [State.lowRegs]

/-- The k-th byte LD_I_Vx stores is V[k] (R174). -/
theorem State.lowRegs_getElem (s : State) (x : Reg) (r : Reg) (h : r.val < (s.lowRegs x).length) :
    (s.lowRegs x)[r.val] = s.reg r := by
  simp [State.lowRegs, State.reg]

/-- What LD_Vx_I leaves in each register (R175). -/
theorem State.loadedRegs_getElem (s : State) (x r : Reg) :
    (s.loadedRegs x)[r.val] = if r.val ≤ x.val then s.byte (s.i.toNat + r.val) else s.reg r := by
  simp [State.loadedRegs]

@[simp] theorem bcdDigits_length (b : Byte) : (bcdDigits b).length = 3 := rfl

end Sys2Proof.Machine
end

