-- ==== Sys2Proof/Laws/Step.lean ====
section
/-!
SUPPORT. One step, by the scheduler's phase, and the three ways an instruction slot can go.
-/

namespace Sys2Proof.Machine

/-- Between ticks a step is a host transition (R111). -/
theorem step_between (s : State) (h : s.phase = .between) : step s = .next s.hostTurn := by
  simp [step, h]

/-- With no slot left a step makes the closing stages (R107). -/
theorem step_slots_zero (s : State) (h : s.phase = .slots 0) : step s = .next s.closeTick := by
  simp [step, h]

/-- With a slot left a step runs it (R100). -/
theorem step_slots_succ (s : State) (n : Nat) (h : s.phase = .slots (n + 1)) : step s = slot n s := by
  simp [step, h]

/-- A slot of the tick: nothing while paused, else an instruction (R101, R102). -/
theorem slot_cases (n : Nat) (s : State) :
    (s.pause = true ∧ slot n s = .next (s.withPhase (.slots n))) ∨
    (s.pause = false ∧ slot n s = runInstr (s.withPhase (.slots n))) := by
  unfold slot
  cases h : s.pause <;> simp

/-- Everything the fetch, decode and execute of one instruction can do, in the order of the checks (R102, R236). -/
theorem runInstr_cases (s : State) :
    (0xFFE < s.pc.toNat ∧ runInstr s = .next (s.takeFault (.memoryOutOfRange s.pc (faultAddr s.pc)))) ∨
    (s.pc.toNat ≤ 0xFFE ∧ ∃ e, decode (s.wordAt s.pc.toNat) = .error e ∧
      runInstr s = .next (s.takeFault (.decodeError (s.wordAt s.pc.toNat) s.pc))) ∨
    (s.pc.toNat ≤ 0xFFE ∧ ∃ i, decode (s.wordAt s.pc.toNat) = .ok i ∧ runInstr s = exec i s) := by
  unfold runInstr raise
  by_cases h : 0xFFE < s.pc.toNat
  · left
    have : outOfRange s.pc 2 = true := by simp [outOfRange]; omega
    simp [this, h]
  · right
    have hr : outOfRange s.pc 2 = false := by simp [outOfRange]; omega
    cases hd : decode (s.wordAt s.pc.toNat) with
    | error e => left; simp [hr]; omega
    | ok i => right; simp [hr]; omega

end Sys2Proof.Machine
end

