-- ==== Sys2Proof/Laws/Exec.lean ====
section
/-!
SUPPORT. What one instruction can do, said once: fault entry, or a next state that keeps the scheduler's fields. Beside it, running
the machine by one step more, and the check of a program image.
-/

namespace Sys2Proof.Machine

/-- One more step of a run, for any machine behind the host's interface. -/
theorem run_succ (M : Host.Core) (k : Nat) (s t : M.State) (h : M.step s = .next t) : M.run (k + 1) s = M.run k t := by
  rw [Host.Core.run, h]

/-- From `s` to `t` nothing changes but the fields an instruction may write: the run state, FAULT, SPEED, the scheduler's phase, the
last result and the script are as before. -/
def KeepsControl (s t : State) : Prop :=
  t = { s with
    v := t.v, i := t.i, pc := t.pc, stack := t.stack, dt := t.dt, st := t.st, mem := t.mem, pause := t.pause
    pendingKey := t.pendingKey, plane := t.plane, history := t.history, draws := t.draws }

/-- A checked access ends in fault entry or in the state it was given (20_memory.md R61). -/
theorem State.checked_next (s t u : State) (a : Word) (n : Nat) (h : s.checked a n t = .next u) :
    (∃ f, u = s.takeFault f) ∨ u = t := by
  rcases s.checked_cases a n t with ⟨_, h'⟩ | ⟨_, h'⟩
  · right
    rw [h'] at h
    injection h with h
    exact h.symm
  · left
    rw [h'] at h
    injection h with h
    exact ⟨_, h.symm⟩

/-- Everything an instruction can do: take a fault, or keep the control fields. -/
theorem exec_cases (i : Instr) (s t : State) (h : exec i s = .next t) : (∃ f, t = s.takeFault f) ∨ KeepsControl s t := by
  cases i <;> simp only [exec] at h
  case ret =>
    unfold execRet at h
    split at h <;> injection h with h <;> subst h
    · exact .inl ⟨_, rfl⟩
    · exact .inr rfl
  case callAddr =>
    unfold execCallAddr at h
    split at h <;> injection h with h <;> subst h
    · exact .inl ⟨_, rfl⟩
    · exact .inr rfl
  case drw =>
    unfold execDrw at h
    split at h
    · injection h with h
      subst h
      exact .inr rfl
    · exact (s.checked_next _ _ _ _ h).imp id fun h => by subst h; rfl
  case ldBVx => exact (s.checked_next _ _ _ _ h).imp id fun h => by subst h; rfl
  case ldIVx => exact (s.checked_next _ _ _ _ h).imp id fun h => by subst h; rfl
  case ldVxI => exact (s.checked_next _ _ _ _ h).imp id fun h => by subst h; rfl
  all_goals
    right
    injection h with h
    subst h
    first
      | rfl
      | (unfold KeepsControl; rw [State.writeback_frame]; rfl)

/-- The image check as an inequality (R276). -/
theorem programFits_iff (p : List Byte) : programFits p = true ↔ p.length ≤ 3584 := decide_eq_true_iff

/-- The rejected images (R276). -/
theorem programFits_eq_false (p : List Byte) : programFits p = false ↔ 3584 < p.length :=
  decide_eq_false_iff_not.trans Nat.not_le

end Sys2Proof.Machine
end

