-- ==== Sys2Proof/Laws/PerInstr.lean ====
section
/-!
SUPPORT. The per-instruction family TableRow: the word an instruction is encoded to lies in the opcode table's row of its own
tag (30_encoding.md R84), and the instruction is well-formed.
-/

namespace Sys2Proof.Laws

/-- The bits a word of the form op nnn has under the mask 0xF000. -/
theorem encodeNnn_mask (op : Nibble) (nnn : Addr12) : encodeNnn op nnn &&& 0xF000#16 = op ++ 0#12 := by
  have h : (0xF000#16 : Word) = BitVec.allOnes 4 ++ 0#12 := by decide
  rw [encodeNnn, h, BitVec.and_append, BitVec.and_allOnes, BitVec.and_zero]

/-- The bits a word of the form op x kk has under the mask 0xF000. -/
theorem encodeXkk_mask (op : Nibble) (x : Reg) (kk : Byte) : encodeXkk op x kk &&& 0xF000#16 = op ++ 0#4 ++ 0#8 := by
  have h : (0xF000#16 : Word) = BitVec.allOnes 4 ++ 0#4 ++ 0#8 := by decide
  rw [encodeXkk, h, BitVec.and_append, BitVec.and_append]
  simp only [BitVec.and_allOnes, BitVec.and_zero]

/-- The bits a word of the form op x kk has under the mask 0xF0FF. -/
theorem encodeXkk_mask_kk (op : Nibble) (x : Reg) (kk : Byte) :
    encodeXkk op x kk &&& 0xF0FF#16 = op ++ 0#4 ++ kk := by
  have h : (0xF0FF#16 : Word) = BitVec.allOnes 4 ++ 0#4 ++ BitVec.allOnes 8 := by decide
  rw [encodeXkk, h, BitVec.and_append, BitVec.and_append]
  simp only [BitVec.and_allOnes, BitVec.and_zero]

/-- The bits a word of the form op x y n has under the mask 0xF000. -/
theorem encodeXyn_mask (op : Nibble) (x y : Reg) (n : Nibble) :
    encodeXyn op x y n &&& 0xF000#16 = op ++ 0#4 ++ 0#4 ++ 0#4 := by
  have h : (0xF000#16 : Word) = BitVec.allOnes 4 ++ 0#4 ++ 0#4 ++ 0#4 := by decide
  rw [encodeXyn, h, BitVec.and_append, BitVec.and_append, BitVec.and_append]
  simp only [BitVec.and_allOnes, BitVec.and_zero]

/-- The bits a word of the form op x y n has under the mask 0xF00F. -/
theorem encodeXyn_mask_n (op : Nibble) (x y : Reg) (n : Nibble) :
    encodeXyn op x y n &&& 0xF00F#16 = op ++ 0#4 ++ 0#4 ++ n := by
  have h : (0xF00F#16 : Word) = BitVec.allOnes 4 ++ 0#4 ++ 0#4 ++ BitVec.allOnes 4 := by decide
  rw [encodeXyn, h, BitVec.and_append, BitVec.and_append, BitVec.and_append]
  simp only [BitVec.and_allOnes, BitVec.and_zero]

end Sys2Proof.Laws

namespace Sys2Proof.Laws.TableRow

/-- The instruction is well-formed, its row is one of the table's, and its word matches that row (R84). -/
def Statement (i : Instr) : Prop :=
  i.wellFormed = true ∧ i.row ∈ opcodeTable ∧ i.row.matchesWord (encode i) = true

/-- What is left of the statement once the row and the word are known. -/
theorem of_row (i : Instr) (hr : i.row ∈ opcodeTable) (hw : encode i &&& i.row.mask = i.row.value) : Statement i :=
  ⟨i.wellFormed_all, hr, by simp [OpcodeRow.matchesWord, hw]⟩

theorem cls : Statement (.cls) := of_row _ (by simp [opcodeTable, tableInstrsLow, tableInstrsHigh, Instr.row]) (by decide)
theorem ret : Statement (.ret) := of_row _ (by simp [opcodeTable, tableInstrsLow, tableInstrsHigh, Instr.row]) (by decide)
theorem jpAddr (nnn : Addr12) : Statement (.jpAddr nnn) := of_row _ (by simp [opcodeTable, tableInstrsLow, tableInstrsHigh, Instr.row]) (encodeNnn_mask 0x1#4 nnn)
theorem callAddr (nnn : Addr12) : Statement (.callAddr nnn) := of_row _ (by simp [opcodeTable, tableInstrsLow, tableInstrsHigh, Instr.row]) (encodeNnn_mask 0x2#4 nnn)
theorem seVxByte (x : Reg) (kk : Byte) : Statement (.seVxByte x kk) := of_row _ (by simp [opcodeTable, tableInstrsLow, tableInstrsHigh, Instr.row]) (encodeXkk_mask 0x3#4 x kk)
theorem sneVxByte (x : Reg) (kk : Byte) : Statement (.sneVxByte x kk) := of_row _ (by simp [opcodeTable, tableInstrsLow, tableInstrsHigh, Instr.row]) (encodeXkk_mask 0x4#4 x kk)
theorem seVxVy (x y : Reg) : Statement (.seVxVy x y) := of_row _ (by simp [opcodeTable, tableInstrsLow, tableInstrsHigh, Instr.row]) (encodeXyn_mask_n 0x5#4 x y 0x0#4)
theorem ldVxByte (x : Reg) (kk : Byte) : Statement (.ldVxByte x kk) := of_row _ (by simp [opcodeTable, tableInstrsLow, tableInstrsHigh, Instr.row]) (encodeXkk_mask 0x6#4 x kk)
theorem addVxByte (x : Reg) (kk : Byte) : Statement (.addVxByte x kk) := of_row _ (by simp [opcodeTable, tableInstrsLow, tableInstrsHigh, Instr.row]) (encodeXkk_mask 0x7#4 x kk)
theorem ldVxVy (x y : Reg) : Statement (.ldVxVy x y) := of_row _ (by simp [opcodeTable, tableInstrsLow, tableInstrsHigh, Instr.row]) (encodeXyn_mask_n 0x8#4 x y 0x0#4)
theorem orVxVy (x y : Reg) : Statement (.orVxVy x y) := of_row _ (by simp [opcodeTable, tableInstrsLow, tableInstrsHigh, Instr.row]) (encodeXyn_mask_n 0x8#4 x y 0x1#4)
theorem andVxVy (x y : Reg) : Statement (.andVxVy x y) := of_row _ (by simp [opcodeTable, tableInstrsLow, tableInstrsHigh, Instr.row]) (encodeXyn_mask_n 0x8#4 x y 0x2#4)
theorem xorVxVy (x y : Reg) : Statement (.xorVxVy x y) := of_row _ (by simp [opcodeTable, tableInstrsLow, tableInstrsHigh, Instr.row]) (encodeXyn_mask_n 0x8#4 x y 0x3#4)
theorem addVxVy (x y : Reg) : Statement (.addVxVy x y) := of_row _ (by simp [opcodeTable, tableInstrsLow, tableInstrsHigh, Instr.row]) (encodeXyn_mask_n 0x8#4 x y 0x4#4)
theorem subVxVy (x y : Reg) : Statement (.subVxVy x y) := of_row _ (by simp [opcodeTable, tableInstrsLow, tableInstrsHigh, Instr.row]) (encodeXyn_mask_n 0x8#4 x y 0x5#4)
theorem shr (x y : Reg) : Statement (.shr x y) := of_row _ (by simp [opcodeTable, tableInstrsLow, tableInstrsHigh, Instr.row]) (encodeXyn_mask_n 0x8#4 x y 0x6#4)
theorem subn (x y : Reg) : Statement (.subn x y) := of_row _ (by simp [opcodeTable, tableInstrsLow, tableInstrsHigh, Instr.row]) (encodeXyn_mask_n 0x8#4 x y 0x7#4)
theorem shl (x y : Reg) : Statement (.shl x y) := of_row _ (by simp [opcodeTable, tableInstrsLow, tableInstrsHigh, Instr.row]) (encodeXyn_mask_n 0x8#4 x y 0xE#4)
theorem sneVxVy (x y : Reg) : Statement (.sneVxVy x y) := of_row _ (by simp [opcodeTable, tableInstrsLow, tableInstrsHigh, Instr.row]) (encodeXyn_mask_n 0x9#4 x y 0x0#4)
theorem ldIAddr (nnn : Addr12) : Statement (.ldIAddr nnn) := of_row _ (by simp [opcodeTable, tableInstrsLow, tableInstrsHigh, Instr.row]) (encodeNnn_mask 0xA#4 nnn)
theorem jpV0Addr (nnn : Addr12) : Statement (.jpV0Addr nnn) := of_row _ (by simp [opcodeTable, tableInstrsLow, tableInstrsHigh, Instr.row]) (encodeNnn_mask 0xB#4 nnn)
theorem rnd (x : Reg) (kk : Byte) : Statement (.rnd x kk) := of_row _ (by simp [opcodeTable, tableInstrsLow, tableInstrsHigh, Instr.row]) (encodeXkk_mask 0xC#4 x kk)
theorem drw (x y : Reg) (n : Nibble) : Statement (.drw x y n) := of_row _ (by simp [opcodeTable, tableInstrsLow, tableInstrsHigh, Instr.row]) (encodeXyn_mask 0xD#4 x y n)
theorem skpVx (x : Reg) : Statement (.skpVx x) := of_row _ (by simp [opcodeTable, tableInstrsLow, tableInstrsHigh, Instr.row]) (encodeXkk_mask_kk 0xE#4 x 0x9E#8)
theorem sknpVx (x : Reg) : Statement (.sknpVx x) := of_row _ (by simp [opcodeTable, tableInstrsLow, tableInstrsHigh, Instr.row]) (encodeXkk_mask_kk 0xE#4 x 0xA1#8)
theorem ldVxDt (x : Reg) : Statement (.ldVxDt x) := of_row _ (by simp [opcodeTable, tableInstrsLow, tableInstrsHigh, Instr.row]) (encodeXkk_mask_kk 0xF#4 x 0x07#8)
theorem ldVxK (x : Reg) : Statement (.ldVxK x) := of_row _ (by simp [opcodeTable, tableInstrsLow, tableInstrsHigh, Instr.row]) (encodeXkk_mask_kk 0xF#4 x 0x0A#8)
theorem ldDtVx (x : Reg) : Statement (.ldDtVx x) := of_row _ (by simp [opcodeTable, tableInstrsLow, tableInstrsHigh, Instr.row]) (encodeXkk_mask_kk 0xF#4 x 0x15#8)
theorem ldStVx (x : Reg) : Statement (.ldStVx x) := of_row _ (by simp [opcodeTable, tableInstrsLow, tableInstrsHigh, Instr.row]) (encodeXkk_mask_kk 0xF#4 x 0x18#8)
theorem addIVx (x : Reg) : Statement (.addIVx x) := of_row _ (by simp [opcodeTable, tableInstrsLow, tableInstrsHigh, Instr.row]) (encodeXkk_mask_kk 0xF#4 x 0x1E#8)
theorem ldFVx (x : Reg) : Statement (.ldFVx x) := of_row _ (by simp [opcodeTable, tableInstrsLow, tableInstrsHigh, Instr.row]) (encodeXkk_mask_kk 0xF#4 x 0x29#8)
theorem ldBVx (x : Reg) : Statement (.ldBVx x) := of_row _ (by simp [opcodeTable, tableInstrsLow, tableInstrsHigh, Instr.row]) (encodeXkk_mask_kk 0xF#4 x 0x33#8)
theorem ldIVx (x : Reg) : Statement (.ldIVx x) := of_row _ (by simp [opcodeTable, tableInstrsLow, tableInstrsHigh, Instr.row]) (encodeXkk_mask_kk 0xF#4 x 0x55#8)
theorem ldVxI (x : Reg) : Statement (.ldVxI x) := of_row _ (by simp [opcodeTable, tableInstrsLow, tableInstrsHigh, Instr.row]) (encodeXkk_mask_kk 0xF#4 x 0x65#8)

end Sys2Proof.Laws.TableRow
end

