-- ==== Sys2Proof/Tests/Slice0.lean ====
section
/-!
SUPPORT. Tests: ill-formed terms that the checks refuse, decoding of words written out from the patterns of 30_encoding.md R84, one
or two steps per instruction with the results of 95_test_vectors.md, and for every statement with hypotheses a state that meets them.
-/

namespace Sys2Proof.Tests

open Sys2Proof Sys2Proof.Machine

/-- The start of the step vectors of 95_test_vectors.md: an empty program loaded, the plane blank, a slot to run. -/
def base : State := { State.reset with runState := .ready, plane := blankPlane, phase := .slots 1 }

/-- The state an outcome goes on with. -/
def ans : Host.Outcome State Fault Refusal → Option State
  | .next t => some t
  | _ => none

/-- The word placed at PC and one step made: fetch, decode and execution together. -/
def runs (w : Nat) (s : State) : Option State := ans (step (s.withFetchWord 16 w))

/-- What a test looks at after the step of word `w` from `s`. -/
def sees {α : Type} (f : State → α) (w : Nat) (s : State) : Option α := (runs w s).map f

/-! ### Ill-formed terms are refused -/

theorem test_wf_word_zero : legalWord 0x0000 = false := by decide
theorem test_wf_word_sys : legalWord 0x0123 = false := by decide
theorem test_wf_word_5121 : legalWord 0x5121 = false := by decide
theorem test_wf_word_9AB1 : legalWord 0x9AB1 = false := by decide
theorem test_wf_word_8008 : legalWord 0x8008 = false := by decide
theorem test_wf_word_E19F : legalWord 0xE19F = false := by decide
theorem test_wf_word_FFFF : legalWord 0xFFFF = false := by decide
theorem test_wf_word_legal : legalWord 0x00E0 = true ∧ legalWord 0xF165 = true := by decide

/-- The operand checks hold of the largest operands; the operand types leave no ill-formed term. -/
theorem test_wf_instr : (Instr.drw 15 15 15).wellFormed = true ∧ (Instr.jpAddr 0xFFF).wellFormed = true := by decide

/-- A program of 3585 bytes does not fit, one of 3584 does (R276, vectors CY5, CY7). -/
theorem test_wf_program :
    programFits (List.replicate 3585 0) = false ∧ programFits (List.replicate 3584 0) = true := by
  constructor
  · rw [programFits_eq_false, List.length_replicate]; decide
  · rw [programFits_iff, List.length_replicate]

/-- Memory cells out of order, outside memory, twice, or equal to the reset contents are not canonical. -/
theorem test_wf_memory :
    let wf := Memory.wf Config.defaultGlyphs
    wf [(5, 1), (3, 1)] = false ∧ wf [(0x1000, 1)] = false ∧ wf [(7, 1), (7, 2)] = false ∧
    wf [(0, 0xF0)] = false ∧ wf [(0x300, 0)] = false ∧ wf [(0, 1), (0xFFF, 1)] = true := by decide

/-! ### Decoding of words written out from the patterns (R84; vectors D-1 to D-20) -/

theorem test_decode_io :
    decode 0x00E0 = .ok .cls ∧ decode 0xD12F = .ok (.drw 1 2 15) ∧ decode 0xE19E = .ok (.skpVx 1) ∧
    decode 0xE2A1 = .ok (.sknpVx 2) ∧ decode 0xF30A = .ok (.ldVxK 3) := by decide
theorem test_decode_control :
    decode 0x00EE = .ok .ret ∧ decode 0x1ABC = .ok (.jpAddr 0xABC) ∧ decode 0x2301 = .ok (.callAddr 0x301) ∧
    decode 0x3AB2 = .ok (.seVxByte 0xA 0xB2) ∧ decode 0x4312 = .ok (.sneVxByte 3 0x12) ∧
    decode 0x5120 = .ok (.seVxVy 1 2) ∧ decode 0x9AB0 = .ok (.sneVxVy 0xA 0xB) ∧
    decode 0xB123 = .ok (.jpV0Addr 0x123) := by decide
theorem test_decode_alu_low :
    decode 0x6A5C = .ok (.ldVxByte 0xA 0x5C) ∧ decode 0x7FFF = .ok (.addVxByte 0xF 0xFF) ∧
    decode 0x8120 = .ok (.ldVxVy 1 2) ∧ decode 0x8121 = .ok (.orVxVy 1 2) ∧ decode 0x8122 = .ok (.andVxVy 1 2) ∧
    decode 0x8123 = .ok (.xorVxVy 1 2) := by decide
theorem test_decode_alu_high :
    decode 0x8124 = .ok (.addVxVy 1 2) ∧ decode 0x8125 = .ok (.subVxVy 1 2) ∧ decode 0x81F6 = .ok (.shr 1 15) ∧
    decode 0x8127 = .ok (.subn 1 2) ∧ decode 0x812E = .ok (.shl 1 2) ∧ decode 0xC40F = .ok (.rnd 4 0x0F) := by decide
theorem test_decode_index :
    decode 0xA300 = .ok (.ldIAddr 0x300) ∧ decode 0xF21E = .ok (.addIVx 2) ∧ decode 0xF029 = .ok (.ldFVx 0) ∧
    decode 0xFA33 = .ok (.ldBVx 0xA) ∧ decode 0xF155 = .ok (.ldIVx 1) ∧ decode 0xF265 = .ok (.ldVxI 2) := by decide
theorem test_decode_timers :
    decode 0xF107 = .ok (.ldVxDt 1) ∧ decode 0xF415 = .ok (.ldDtVx 4) ∧ decode 0xF618 = .ok (.ldStVx 6) := by decide
theorem test_decode_rejects :
    decode 0x0000 = .error (.decodeError 0x0000) ∧ decode 0x00E1 = .error (.decodeError 0x00E1) ∧
    decode 0x00FF = .error (.decodeError 0x00FF) ∧ decode 0x9AB1 = .error (.decodeError 0x9AB1) ∧
    decode 0x800F = .error (.decodeError 0x800F) ∧ decode 0xFFFF = .error (.decodeError 0xFFFF) := by decide
theorem test_decode_bytes :
    decodeBytes [0x1A, 0xBC, 0x00] = .ok (.jpAddr 0xABC, [0x00]) ∧ decodeBytes [0x1A] = .error .truncated ∧
    decodeTableWord 16 0x3AB2 = some (.seVxByte 0xA 0xB2) ∧ decodeTableWord 16 0x0123 = none := by decide

/-! ### Control flow (vectors CF1 to CF25) -/

theorem test_jp : sees (·.pc) 0x1ABC base = some 0xABC := by decide
theorem test_jp_odd : sees (·.pc) 0x1201 base = some 0x201 := by decide
theorem test_call : sees (fun t => (t.pc, t.stack)) 0x2300 base = some (0x300, [0x202]) := by decide
theorem test_call_overflow :
    sees (fun t => (t.pc, t.stack.length, t.fault)) 0x2300 { base with stack := List.replicate 16 0x206 } =
      some (0x200, 16, some (.stackOverflow 0x200 16)) := by decide
theorem test_ret : sees (fun t => (t.pc, t.stack)) 0x00EE { base with pc := 0x300, stack := [0x202] } = some (0x202, []) := by
  decide
theorem test_ret_underflow :
    sees (fun t => (t.pc, t.runState, t.fault)) 0x00EE base = some (0x200, .faulted, some (.stackUnderflow 0x200 0)) := by decide
theorem test_se_byte_taken : sees (·.pc) 0x3312 (base.setReg 3 0x12) = some 0x204 := by decide
theorem test_se_byte_top : sees (·.pc) 0x3000 { base with pc := 0xFFC } = some 0x1000 := by decide
theorem test_sne_byte_not_taken : sees (·.pc) 0x4312 (base.setReg 3 0x12) = some 0x202 := by decide
theorem test_sne_byte_taken : sees (·.pc) 0x4312 base = some 0x204 := by decide
theorem test_se_reg_taken : sees (·.pc) 0x5120 ((base.setReg 1 7).setReg 2 7) = some 0x204 := by decide
theorem test_se_reg_not_taken : sees (·.pc) 0x5120 ((base.setReg 1 7).setReg 2 8) = some 0x202 := by decide
theorem test_sne_reg_taken : sees (·.pc) 0x9120 ((base.setReg 1 7).setReg 2 8) = some 0x204 := by decide
theorem test_sne_reg_not_taken : sees (·.pc) 0x9120 ((base.setReg 1 7).setReg 2 7) = some 0x202 := by decide
theorem test_jp_v0 : sees (·.pc) 0xB300 (base.setReg 0 4) = some 0x304 := by decide
theorem test_jp_v0_top : sees (·.pc) 0xBFFF (base.setReg 0 0xFF) = some 0x10FE := by decide

/-! ### ALU (vectors A1 to A35) -/

theorem test_ld_byte : sees (·.reg 10) 0x6A5C base = some 0x5C := by decide
theorem test_add_byte_no_flag :
    sees (fun t => (t.reg 1, t.reg 15)) 0x7102 ((base.setReg 1 0xFF).setReg 15 0xAA) = some (0x01, 0xAA) := by decide
theorem test_ld_reg : sees (·.reg 1) 0x8120 (base.setReg 2 0x99) = some 0x99 := by decide
theorem test_or :
    sees (fun t => (t.reg 1, t.reg 15)) 0x8121 (((base.setReg 1 0xF0).setReg 2 0x0F).setReg 15 0xAA) = some (0xFF, 0xAA) := by
  decide
theorem test_and : sees (·.reg 1) 0x8122 ((base.setReg 1 0xF0).setReg 2 0x3C) = some 0x30 := by decide
theorem test_xor : sees (·.reg 1) 0x8123 ((base.setReg 1 0xF0).setReg 2 0x3C) = some 0xCC := by decide
theorem test_add_carry : sees (fun t => (t.reg 1, t.reg 15)) 0x8124 ((base.setReg 1 0xFF).setReg 2 1) = some (0, 1) := by decide
theorem test_add_old_vf : sees (fun t => (t.reg 1, t.reg 15)) 0x81F4 ((base.setReg 1 1).setReg 15 1) = some (2, 0) := by decide
theorem test_sub_equal : sees (fun t => (t.reg 1, t.reg 15)) 0x8125 ((base.setReg 1 3).setReg 2 3) = some (0, 0) := by decide
theorem test_sub_wraps : sees (fun t => (t.reg 1, t.reg 15)) 0x8125 (base.setReg 2 1) = some (0xFF, 0) := by decide
theorem test_subn : sees (fun t => (t.reg 1, t.reg 15)) 0x8127 ((base.setReg 1 3).setReg 2 5) = some (2, 1) := by decide
theorem test_subn_wraps : sees (fun t => (t.reg 1, t.reg 15)) 0x8127 ((base.setReg 1 5).setReg 2 3) = some (0xFE, 0) := by decide
theorem test_shr : sees (fun t => (t.reg 1, t.reg 15)) 0x8106 (base.setReg 1 3) = some (1, 1) := by decide
theorem test_shr_ignores_y : sees (fun t => (t.reg 1, t.reg 15)) 0x81F6 (base.setReg 1 3) = some (1, 1) := by decide
theorem test_shl : sees (fun t => (t.reg 1, t.reg 15)) 0x810E (base.setReg 1 0x81) = some (2, 1) := by decide
theorem test_shl_no_carry : sees (fun t => (t.reg 1, t.reg 15)) 0x810E (base.setReg 1 0x7F) = some (0xFE, 0) := by decide

/-- RND on the draws of vectors A26 and A29. -/
theorem test_rnd : (base.rndWith 0xA7 4 0x0F).reg 4 = 0x07 ∧ (base.rndWith 0xFF 15 0x80).reg 15 = 0x80 := by decide

/-- VF as destination under both values of P_VF_DEST (vectors A30, A33). -/
theorem test_vf_destination :
    (base.writebackIn .flagLast 15 0x04 1).reg 15 = 1 ∧ (base.writebackIn .resultLast 15 0x04 1).reg 15 = 4 ∧
    (base.writebackIn .flagLast 15 0x01 0).reg 15 = 0 ∧ (base.writebackIn .resultLast 15 0x01 0).reg 15 = 1 := by decide

/-! ### Index register and memory (vectors M1 to M21) -/

/-- The `n` bytes at `a` after the step. -/
def bytesAt (a n : Nat) (t : State) : List Byte := t.bytes a n

theorem test_ld_i : sees (·.i) 0xA300 base = some 0x300 := by decide
theorem test_add_i : sees (fun t => (t.i, t.reg 15)) 0xF21E (((base.setI 0xFFF).setReg 2 2).setReg 15 0xAA) = some (0x1001, 0xAA) := by
  decide
theorem test_add_i_wraps : sees (·.i) 0xF21E ((base.setI 0xFFFF).setReg 2 2) = some 1 := by decide
theorem test_ld_f : sees (·.i) 0xF029 (base.setReg 0 7) = some 0x023 := by decide
theorem test_ld_f_no_mask : sees (·.i) 0xF029 (base.setReg 0 0xFF) = some 0x4FB := by decide
theorem test_bcd : sees (bytesAt 0x300 3) 0xFA33 ((base.setReg 10 0x9C).setI 0x300) = some [1, 5, 6] := by decide
theorem test_bcd_faults :
    sees (fun t => (bytesAt 0xFFE 2 t, t.fault)) 0xFA33 ((base.setReg 10 0x9C).setI 0xFFE) =
      some ([0, 0], some (.memoryOutOfRange 0x200 0x1000)) := by decide
theorem test_store : sees (bytesAt 0x400 3) 0xF155 (((base.setReg 0 0x11).setReg 1 0x22).setI 0x400) = some [0x11, 0x22, 0] := by
  decide
theorem test_store_faults :
    sees (fun t => (bytesAt 0xFFF 1 t, t.fault)) 0xF155 ((base.setReg 0 0x11).setI 0xFFF) =
      some ([0], some (.memoryOutOfRange 0x200 0x1000)) := by decide
theorem test_load :
    sees (fun t => (t.reg 0, t.reg 1, t.reg 2, t.reg 3)) 0xF265
      (((base.setI 0x300).store 0x300 [1, 5, 6]).setReg 3 0x77) = some (1, 5, 6, 0x77) := by decide
theorem test_load_glyph : sees (·.reg 0) 0xF065 base = some 0xF0 := by decide

/-! ### Timers (vectors T1 to T7) -/

theorem test_ld_vx_dt : sees (·.reg 5) 0xF507 (base.setDt 0x3B) = some 0x3B := by decide
theorem test_ld_dt_vx : sees (·.dt) 0xF415 (base.setReg 4 0x3C) = some 0x3C := by decide
theorem test_ld_st_vx : sees (·.st) 0xF618 (base.setReg 6 5) = some 5 := by decide
theorem test_closing :
    (ans (step { base with dt := 3, st := 1, phase := .slots 0 })).map (fun t => (t.dt, t.st, t.history, t.phase, t.lastResult)) =
      some (2, 0, [.present, .toneStop], .between, some .ok) := by decide
theorem test_closing_tone :
    (ans (step { base with st := 5, phase := .slots 0 })).map (fun t => (t.dt, t.st, t.history)) =
      some (0, 4, [.present, .toneStart]) := by decide

/-! ### Display, keys and wait (vectors IO1 to IO16) -/

/-- A sprite byte at 0x300 and I pointing at it. -/
def sprite (b : Byte) : State := { base with i := 0x300, mem := [(0x300, b)] }

theorem test_cls : sees (fun t => (t.plane, t.history)) 0x00E0 { base with plane := Vector.replicate 32 0xFF } =
    some (blankPlane, [.clear]) := by decide
theorem test_drw_wraps :
    sees (fun t => (pixel t.plane 62 31, pixel t.plane 63 31, pixel t.plane 5 31, pixel t.plane 6 31, t.reg 15)) 0xD121
      (((sprite 0xFF).setReg 1 62).setReg 2 31) = some (true, true, true, false, 0) := by decide
theorem test_drw_reads_vf_first :
    sees (fun t => (pixel t.plane 8 0, pixel t.plane 0 0, t.reg 15)) 0xDF21 ((sprite 0x80).setReg 15 8) =
      some (true, false, 0) := by decide
theorem test_drw_collision :
    sees (fun t => (pixel t.plane 10 5, t.reg 15)) 0xD121
      ((((sprite 0xC3).setReg 1 10).setReg 2 5).setPlane (setPixel blankPlane 10 5 true).1) = some (false, 1) := by decide
theorem test_drw_faults :
    sees (fun t => (t.reg 15, t.plane, t.history, t.fault)) 0xD123 ((base.setI 0xFFE).setReg 15 0x55) =
      some (0x55, blankPlane, [], some (.memoryOutOfRange 0x200 0x1000)) := by decide
theorem test_drw_zero_rows : sees (fun t => (t.reg 15, t.history, t.fault)) 0xD120 ((base.setI 0xFFFF).setReg 15 0x55) =
    some (0, [], none) := by decide
theorem test_skp : ((base.setReg 2 5).skpWith true 2).pc = 0x204 ∧ ((base.setReg 2 5).skpWith false 2).pc = 0x202 := by decide
theorem test_sknp : ((base.setReg 2 5).sknpWith false 2).pc = 0x204 ∧ ((base.setReg 2 5).sknpWith true 2).pc = 0x202 := by decide
theorem test_ld_k :
    sees (fun t => (t.pc, t.pause, t.pendingKey, t.reg 3)) 0xF30A base = some (0x202, true, some 3, 0) := by decide
theorem test_key_press :
    ({ base with pause := true, pendingKey := some 3 }.keyPress 0xC).reg 3 = 0x0C ∧
    ({ base with pause := true, pendingKey := some 3 }.keyPress 0xC).pause = false ∧ base.keyPress 5 = base := by decide

/-! ### Cycle, faults, reset and load (vectors CY1 to CY10, RS1, CF3, CF24) -/

/-- Between ticks, with host calls to come. -/
def idle (calls : List HostCall) : State := { State.reset with plane := blankPlane, script := calls }

theorem test_tick_idle : ans (step (idle [.tick])) = some { idle [] with lastResult := some .ok } := by decide
theorem test_tick_faulted :
    (ans (step { idle [.tick] with runState := .faulted, fault := some (.decodeError 0 0x200) })).map (·.lastResult) =
      some (some (.fault (.decodeError 0 0x200))) := by decide
theorem test_empty_program :
    (ans (step { base.load [] with phase := .slots 10 })).map (fun t => (t.fault, t.runState, t.pc, t.phase, t.history)) =
      some (some (.decodeError 0x0000 0x200), .faulted, 0x200, .between, []) := by decide
theorem test_fetch_range : sees (·.fault) 0x1FFF base = some none ∧
    (ans (step { base with pc := 0xFFF })).map (·.fault) = some (some (.memoryOutOfRange 0xFFF 0x1000)) ∧
    (ans (step { base with pc := 0x10FE })).map (·.fault) = some (some (.memoryOutOfRange 0x10FE 0x10FE)) := by decide
theorem test_reset_glyphs :
    ((base.store 0x000 [1]).store 0x04C [2]).hostReset.bytes 0x04B 6 = [0xF0, 0x80, 0xF0, 0x80, 0x80, 0x00] := by decide
/-- A block with other glyphs: reset seeds them again, and DRW draws them (P_GLYPHS is a parameter, R7, R272). -/
theorem test_other_glyphs :
    (({ base with glyphs := Vector.replicate 80 0x81 }.store 0x000 [1]).hostReset.bytes 0x04E 3 = [0x81, 0x81, 0x00]) ∧
    sees (fun t => (pixel t.plane 0 0, pixel t.plane 1 0, pixel t.plane 7 0)) 0xD111
      { base with glyphs := Vector.replicate 80 0x81 } = some (true, false, true) := by decide
theorem test_fault_codes :
    Fault.code (.decodeError 0 0) = 1 ∧ Fault.code (.stackUnderflow 0 0) = 2 ∧ Fault.code (.stackOverflow 0 16) = 3 ∧
    Fault.code (.memoryOutOfRange 0 0) = 4 ∧ CallResult.code (.loadError 3585) = some 5 := by decide
theorem test_set_speed : (ans (step (idle [.setSpeed 3]))).map (·.speed) = some 3 := by decide

/-! ### For every statement with hypotheses, a state and operands that meet them, clause by clause -/

theorem witness_EncodeOfDecode : decode 0x2ABC = .ok (.callAddr 0xABC) := by decide
theorem witness_DecodeFollowsTable :
    decode 0x812E = .ok (.shl 1 2) ∧ decode 0x5121 = .error (.decodeError 0x5121) := by decide
theorem witness_TableRowsDisjoint :
    Instr.row (.shr 0 0) ∈ opcodeTable ∧ (Instr.row (.shr 0 0)).matchesWord 0x81F6 = true := by decide

/-- 6A5C at 0x200. -/
def coded : State := base.store 0x200 [0x6A, 0x5C]

theorem witness_StepRunsDecodedInstruction :
    coded.phase = .slots (0 + 1) ∧ coded.pause = false ∧ coded.pc.toNat + 1 ≤ 0xFFF ∧
    decode (wordOfBytes (coded.byte coded.pc.toNat) (coded.byte (coded.pc.toNat + 1))) =
      .ok (.ldVxByte 0xA 0x5C) := by decide
/-- The highest PC that the fetch reads. -/
theorem witness_StepRunsDecodedInstruction_top :
    (0xFFE : Word).toNat + 1 ≤ 0xFFF ∧
    decode ((base.store 0xFFE [0x6A, 0x5C]).wordAt 0xFFE) = .ok (.ldVxByte 0xA 0x5C) := by decide
theorem witness_FetchRangeFaults :
    base.phase = .slots (0 + 1) ∧ base.pause = false ∧ 0xFFF < (0xFFF : Word).toNat + 1 ∧ 0xFFF < (0xFFFF : Word).toNat + 1 := by
  decide
theorem witness_IllegalWordFaults :
    base.phase = .slots (0 + 1) ∧ base.pause = false ∧ base.pc.toNat + 1 ≤ 0xFFF ∧
    legalWord (base.wordAt base.pc.toNat) = false := by decide

/-- A block that waits for a key for V3, with two slots left. -/
def paused : State := { base with pause := true, pendingKey := some 3, phase := .slots 2, dt := 1, st := 2 }

theorem witness_PausedTickOnlyCloses : paused.phase = .slots 2 ∧ paused.pause = true := by decide

/-- LD_I_Vx V1 at 0x200 with I at the next slot's address, V0 and V1 holding JP_ADDR 0x234. -/
def storing : State := { (base.setReg 0 0x12).setReg 1 0x34 with i := 0x202, phase := .slots 2 }

theorem witness_StoredCodeIsRun :
    storing.phase = .slots (1 + 1) ∧ storing.pause = false ∧ storing.i.toNat + (1 : Reg).val ≤ 0xFFF ∧ 1 ≤ (1 : Reg).val ∧
    storing.pc.toNat + 2 = storing.i.toNat ∧ decode (wordOfBytes (storing.reg 0) (storing.reg 1)) = .ok (.jpAddr 0x234) := by
  decide
theorem witness_ReturnPops :
    ({ base with stack := [0x206, 0x20A] } : State).stack = [0x206] ++ [0x20A] ∧ base.stack = [] := by decide
theorem witness_CallPushes :
    ({ base with stack := List.replicate 15 0x206 } : State).stack.length ≠ 16 ∧
    ({ base with stack := List.replicate 16 0x206 } : State).stack.length = 16 := by decide
theorem witness_CallThenReturn : ({ base with stack := List.replicate 15 0x206 } : State).stack.length < 16 := by decide
theorem witness_RandomByteMasked : (0x7F : Byte).getLsbD 7 = false ∧ (3 : Reg) ≠ 4 := by decide
theorem witness_BcdDigitsStored :
    (base.setI 0xFFD).i.toNat + 2 ≤ 0xFFF ∧ 0xFFF < (base.setI 0xFFE).i.toNat + 2 := by decide
theorem witness_RegistersStored :
    (base.setI 0xFF0).i.toNat + (15 : Reg).val ≤ 0xFFF ∧ 0xFFF < (base.setI 0xFF1).i.toNat + (15 : Reg).val ∧
    (base.setI 0xFFF).i.toNat + (0 : Reg).val ≤ 0xFFF ∧ (3 : Reg) ≤ 15 := by decide
theorem witness_RegistersLoaded :
    (base.setI 0xFFE).i.toNat + (1 : Reg).val ≤ 0xFFF ∧ 0xFFF < (base.setI 0xFFF).i.toNat + (1 : Reg).val ∧
    (1 : Reg) ≤ 1 ∧ (1 : Reg) < 2 := by decide
theorem witness_StoreThenLoadRegisters : (base.setI 0xFF0).i.toNat + (15 : Reg).val ≤ 0xFFF := by decide
theorem witness_ClosingStages : ({ base with phase := .slots 0, dt := 0, st := 1 } : State).phase = .slots 0 := by decide
/-- No row at any I, the highest sprite that fits, and the lowest that does not. -/
theorem witness_SpriteDrawn :
    ((0 : Nibble) = 0 ∨ (base.setI 0xFFFF).i.toNat + (0 : Nibble).toNat - 1 ≤ 0xFFF) ∧
    ((15 : Nibble) = 0 ∨ (base.setI 0xFF1).i.toNat + (15 : Nibble).toNat - 1 ≤ 0xFFF) ∧
    (15 : Nibble) ≠ 0 ∧ 0xFFF < (base.setI 0xFF2).i.toNat + (15 : Nibble).toNat - 1 ∧
    0xFFF < (base.setI 0x1000).i.toNat + (1 : Nibble).toNat - 1 := by decide
theorem witness_SpritePortCalls : (1 : Nibble) = 0 ∨ (base.setI 0xFFF).i.toNat + (1 : Nibble).toNat - 1 ≤ 0xFFF := by decide
theorem witness_DrawTwiceRestoresPlane :
    (1 : Reg) ≠ 15 ∧ (2 : Reg) ≠ 15 ∧ ((1 : Nibble) = 0 ∨ (sprite 0xC3).i.toNat + (1 : Nibble).toNat - 1 ≤ 0xFFF) := by decide
theorem witness_KeyPressEvent : paused.pendingKey = some 3 ∧ base.pendingKey = none ∧ (2 : Reg) ≠ 3 := by decide
theorem witness_ResetIsIdempotent : base.glyphs = (base.setReg 1 7).glyphs ∧ 0x050 ≤ 0x050 := by decide
theorem witness_PowerUpState : 0x04F < 0x050 := by decide
theorem witness_ResetValues : 0x04F < 0x050 ∧ 0x050 ≤ 0x050 ∧ 0xFFF ≤ 0xFFF := by decide
theorem witness_LoadInstallsProgram :
    ([] : List Byte).length ≤ 3584 ∧ (List.replicate 3584 (0 : Byte)).length ≤ 3584 ∧ 0x1FF < 0x200 ∧
    0x200 + ([0x12, 0x00] : List Byte).length ≤ 0x202 ∧ 1 < ([0x12, 0x00] : List Byte).length := by
  rw [List.length_replicate]
  decide
theorem witness_LoadTooLongChangesNothing :
    3584 < (List.replicate 3585 (0 : Byte)).length ∧ (List.replicate 3584 (0 : Byte)).length = 3584 := by
  rw [List.length_replicate, List.length_replicate]
  decide

/-- A block that has faulted. -/
def faulted : State := { idle [] with runState := .faulted, fault := some (.decodeError 0 0x200) }

theorem witness_TickWhenNotReady :
    (idle []).runState = .idle ∧ faulted.runState = .faulted ∧ faulted.fault = some (.decodeError 0 0x200) ∧
    (faulted.perform .reset).runState ≠ .faulted ∧ (faulted.perform (.load [])).runState ≠ .faulted := by decide
theorem witness_HostCallsPerformed :
    (idle [.keyPress 7]).phase = .between ∧ (idle [.keyPress 7]).script = .keyPress 7 :: [] ∧
    (idle [.reset, .tick]).script = .reset :: [.tick] ∧ (idle [.load [0x00, 0xE0]]).script = .load [0x00, 0xE0] :: [] := by decide
theorem witness_TickOpensSlots :
    ({ idle [.tick] with runState := .ready } : State).phase = .between ∧
    ({ idle [.tick] with runState := .ready } : State).script = .tick :: [] ∧
    ({ idle [.tick] with runState := .ready } : State).runState = .ready ∧
    (idle [.setSpeed 0]).script = .setSpeed 0 :: [] ∧ ({ idle [] with runState := .ready } : State).script = [] := by decide
theorem witness_CancelledKeyWait : ([0xF3, 0x0A] : List Byte).length ≤ 3584 := by decide

/-- A Ready block inside a tick, at the top of memory, with a frame on the stack and a byte of memory written. -/
def busy : State := { base with stack := [0x206], mem := [(0x300, 1)], pc := 0xFFE }

theorem witness_InvariantKeptByStep : busy.Inv ∧ (ans (step busy)).isSome = true where
  left := {
    memWf := by decide
    pauseIffPending := by decide
    stackDepth := by decide
    faultedIffFault := by decide
    idleIsReset := fun h => absurd h (by decide)
    faultedNotPaused := by decide
    tickIsReady := by decide
    pcBound := by decide
    stackBound := by simp [busy] }
  right := by decide
theorem witness_TickIsRunOfSteps :
    ({ idle [.tick, .reset] with runState := .ready } : State).script = .tick :: [.reset] ∧
    ({ idle [] with runState := .ready } : State).phase = .between ∧ ({ idle [] with runState := .ready } : State).script = [] := by
  decide
theorem witness_RegisterWriters :
    (ans (exec (.addVxVy 1 2) base)).isSome = true ∧ writesRegister (.addVxVy 1 2) 3 = false ∧
    (ans (exec (.ldVxI 14) base)).isSome = true ∧ writesRegister (.ldVxI 14) 15 = false ∧ paused.pendingKey ≠ some 4 := by decide
theorem witness_StateWriters :
    (ans (exec (.ldIVx 1) (base.setI 0x400))).isSome = true ∧ (ans (exec .cls base)).isSome = true := by decide
theorem witness_FaultsArePrecise :
    base.phase = .slots (0 + 1) ∧ base.runState = .ready ∧ (ans (step base)).map (·.runState) = some .faulted := by decide
theorem witness_OnlyCheckedInstructionsFault :
    (ans (exec (.ldVxByte 1 2) base)).isSome = true ∧ Instr.ldVxByte 1 2 ≠ .ret := by decide
/-- The two clauses of the frame of the five instructions that write both V[x] and VF. -/
theorem witness_WritesRegAndFlag : (14 : Reg) ≠ 15 ∧ (15 : Reg) = 15 := by decide

end Sys2Proof.Tests
end

section
/-!
PROOFS. The invariant of 10_state.md R39 is kept by every step (O54). In a Ready block the invariant is `State.ReadyInv`, six
fields of the state, and FAULT = none; so an instruction, a slot and the closing stages are settled by what they do to those six
fields, fault entry and the host's calls by one lemma each.
-/

namespace Sys2Proof.Machine

/-! ### What the invariant asks of a Ready block -/

/-- The clauses of the invariant that do not depend on the run state, over the six fields they read. -/
structure ReadyFields (g : GlyphTable) (mem : Memory) (pause : Bool) (pendingKey : Option Reg) (stack : List Word) (pc : Word) :
    Prop where
  /-- Memory is in canonical form. -/
  memWf : Memory.wf g mem = true
  /-- R39 (a). -/
  pauseIffPending : pause = true ↔ pendingKey ≠ none
  /-- R39 (b). -/
  stackDepth : stack.length ≤ 16
  /-- R26. -/
  pcBound : pc.toNat ≤ 0x10FE
  /-- R122. -/
  stackBound : ∀ w ∈ stack, w.toNat ≤ 0x1000

/-- The part of the invariant an instruction could break. -/
def State.ReadyInv (s : State) : Prop := ReadyFields s.glyphs s.mem s.pause s.pendingKey s.stack s.pc

variable {s t : State}

theorem State.Inv.readyInv (h : s.Inv) : s.ReadyInv := { h with }

/-- In Ready, R39 (c) says that there is no fault record, and (d), (e) and the clause about ticks ask nothing. -/
theorem State.inv_iff_of_ready (hr : s.runState = .ready) : s.Inv ↔ s.ReadyInv ∧ s.fault = none where
  mp h := ⟨h.readyInv, by simpa [hr] using h.faultedIffFault⟩
  mpr h := {
    h.1 with
    faultedIffFault := by simp [hr, h.2]
    idleIsReset := fun hi => absurd (hr.symm.trans hi) (by decide)
    faultedNotPaused := fun hf => absurd (hr.symm.trans hf) (by decide)
    tickIsReady := fun _ => hr }

/-! ### The operations of an instruction

An operation that writes none of the six fields changes nothing in `ReadyInv`; the others follow. -/

@[simp] theorem State.readyInv_setReg {x : Reg} {b : Byte} : (s.setReg x b).ReadyInv ↔ s.ReadyInv := Iff.rfl
@[simp] theorem State.readyInv_setRegs {v : RegFile} : (s.setRegs v).ReadyInv ↔ s.ReadyInv := Iff.rfl
@[simp] theorem State.readyInv_setI {w : Word} : (s.setI w).ReadyInv ↔ s.ReadyInv := Iff.rfl
@[simp] theorem State.readyInv_setDt {b : Byte} : (s.setDt b).ReadyInv ↔ s.ReadyInv := Iff.rfl
@[simp] theorem State.readyInv_setSt {b : Byte} : (s.setSt b).ReadyInv ↔ s.ReadyInv := Iff.rfl
@[simp] theorem State.readyInv_setPlane {p : Plane} : (s.setPlane p).ReadyInv ↔ s.ReadyInv := Iff.rfl
@[simp] theorem State.readyInv_emit {es : List PortEvent} : (s.emit es).ReadyInv ↔ s.ReadyInv := Iff.rfl
@[simp] theorem State.readyInv_consumeDraw : s.consumeDraw.ReadyInv ↔ s.ReadyInv := Iff.rfl
@[simp] theorem State.readyInv_withPhase {p : Phase} : (s.withPhase p).ReadyInv ↔ s.ReadyInv := Iff.rfl

@[simp] theorem State.readyInv_writeback {x : Reg} {r f : Byte} : (s.writeback x r f).ReadyInv ↔ s.ReadyInv := by
  rw [State.writeback_frame]
  exact Iff.rfl

theorem State.ReadyInv.jump {w : Word} (h : s.ReadyInv) (hw : w.toNat ≤ 0x10FE) : (s.jump w).ReadyInv := { h with pcBound := hw }

/-- From a fetchable address the +2 stays within the bound of R26. -/
theorem State.ReadyInv.advance (h : s.ReadyInv) (hpc : s.pc.toNat ≤ 0xFFE) : s.advance.ReadyInv :=
  h.jump (w := s.pc + 2) (by bv_omega)

/-- From a fetchable address a skip stays within the bound of R26, taken or not. -/
theorem State.ReadyInv.skip (h : s.ReadyInv) (hpc : s.pc.toNat ≤ 0xFFE) (c : Bool) : (s.skip c).ReadyInv := by
  refine h.jump (w := if c then s.pc + 4 else s.pc + 2) ?_
  split <;> bv_omega

theorem State.ReadyInv.store (h : s.ReadyInv) (a : Nat) (bs : List Byte) : (s.store a bs).ReadyInv :=
  { h with memWf := s.wf_store a bs h.memWf }

theorem State.ReadyInv.awaitKey (h : s.ReadyInv) (x : Reg) : (s.awaitKey x).ReadyInv := { h with pauseIffPending := by simp }

/-- Pushing a return address on a stack that is not full (R122). -/
theorem State.ReadyInv.push {w : Word} (h : s.ReadyInv) (hw : w.toNat ≤ 0x1000) (hd : s.stack.length ≠ 16) :
    (s.setStack (pushed s.stack w)).ReadyInv where
  __ := h
  stackDepth := by
    have := h.stackDepth
    simp [pushed]
    omega
  stackBound := by
    simp only [State.setStack_stack, pushed, List.mem_append, List.mem_singleton]
    rintro v (hv | rfl)
    · exact h.stackBound v hv
    · exact hw

/-- Popping the newest entry, whatever it is (R120). -/
theorem State.ReadyInv.pop (h : s.ReadyInv) : (s.setStack s.stack.dropLast).ReadyInv where
  __ := h
  stackDepth := by
    have := h.stackDepth
    simp
    omega
  stackBound w hw := h.stackBound w (List.mem_of_mem_dropLast hw)

theorem State.ReadyInv.checked {u : State} {a : Word} {n : Nat} (h : s.ReadyInv) (ht : t.ReadyInv)
    (hu : s.checked a n t = .next u) : u.ReadyInv := by
  obtain ⟨f, rfl⟩ | rfl := s.checked_next t u a n hu
  · exact h
  · exact ht

/-! ### The instructions -/

theorem execRet_readyInv (h : s.ReadyInv) (ht : execRet s = .next t) : t.ReadyInv := by
  unfold execRet at ht
  split at ht <;> cases ht
  next => exact h
  next top htop => exact h.pop.jump ((h.stackBound top (List.mem_of_getLast? htop)).trans (by decide))

theorem execCallAddr_readyInv {nnn : Addr12} (h : s.ReadyInv) (hpc : s.pc.toNat ≤ 0xFFE) (ht : execCallAddr nnn s = .next t) :
    t.ReadyInv := by
  unfold execCallAddr at ht
  split at ht <;> cases ht
  next => exact h
  next hd => exact (h.push (w := s.pc + 2) (by bv_omega) hd).jump (by rw [zext16_toNat]; omega)

theorem execDrw_readyInv {x y : Reg} {n : Nibble} (h : s.ReadyInv) (hpc : s.pc.toNat ≤ 0xFFE) (ht : execDrw x y n s = .next t) :
    t.ReadyInv := by
  have hd : (s.drawn x y n).ReadyInv := by simpa [State.drawn] using h.advance hpc
  unfold execDrw at ht
  split at ht
  next =>
    cases ht
    exact hd
  next => exact h.checked hd ht

/-- Every instruction at a fetchable address, faulting or not. An instruction that writes none of the six fields but PC leaves what
its +2 leaves. -/
theorem exec_readyInv (i : Instr) (h : s.ReadyInv) (hpc : s.pc.toNat ≤ 0xFFE) (ht : exec i s = .next t) : t.ReadyInv := by
  have hadv := h.advance hpc
  cases i <;> simp only [exec] at ht
  case ret => exact execRet_readyInv h ht
  case callAddr => exact execCallAddr_readyInv h hpc ht
  case drw => exact execDrw_readyInv h hpc ht
  case ldBVx => exact h.checked (hadv.store _ _) ht
  case ldIVx => exact h.checked (hadv.store _ _) ht
  case ldVxI => exact h.checked (State.readyInv_setRegs.2 hadv) ht
  all_goals cases ht
  case jpAddr nnn => exact h.jump (by rw [zext16_toNat]; omega)
  case jpV0Addr nnn => exact h.jump (by rw [BitVec.toNat_ofNat]; omega)
  case seVxByte | sneVxByte | seVxVy | sneVxVy => exact h.skip hpc _
  case skpVx x | sknpVx x =>
    have hq : (s.queryKey x).ReadyInv := by simpa [State.queryKey] using h
    exact hq.skip hpc _
  case ldVxK x => exact State.readyInv_emit.2 (hadv.awaitKey x)
  case rnd => simpa [State.rndWith] using hadv
  all_goals simpa using hadv

/-! ### Fault entry, the slot and the closing stages -/

/-- Fault entry from a state that is not paused, which is the only kind that faults (R237, R39 (e)). -/
theorem State.Inv.takeFault (h : s.Inv) (hp : s.pause = false) (f : Fault) : (s.takeFault f).Inv where
  __ := h.readyInv
  faultedIffFault := by simp
  idleIsReset hi := absurd hi (by simp)
  faultedNotPaused _ := hp
  tickIsReady hph := absurd rfl hph

/-- An instruction of a Ready block that is not paused. -/
theorem exec_inv (i : Instr) (h : s.Inv) (hr : s.runState = .ready) (hp : s.pause = false) (hpc : s.pc.toNat ≤ 0xFFE)
    (ht : exec i s = .next t) : t.Inv := by
  obtain ⟨f, rfl⟩ | hk := exec_cases i s t ht
  · exact h.takeFault hp f
  · have hrt : t.runState = .ready := hk ▸ hr
    have hft : t.fault = none := hk ▸ ((State.inv_iff_of_ready hr).1 h).2
    exact (State.inv_iff_of_ready hrt).2 ⟨exec_readyInv i h.readyInv hpc ht, hft⟩

theorem runInstr_inv (h : s.Inv) (hr : s.runState = .ready) (hp : s.pause = false) (ht : runInstr s = .next t) : t.Inv := by
  obtain ⟨_, he⟩ | ⟨_, _, _, he⟩ | ⟨hpc, i, _, he⟩ := runInstr_cases s
  · cases he.symm.trans ht
    exact h.takeFault hp _
  · cases he.symm.trans ht
    exact h.takeFault hp _
  · exact exec_inv i h hr hp hpc (he.symm.trans ht)

/-- The tick scheduler may move anywhere in a Ready block. -/
theorem State.Inv.withPhase (h : s.Inv) (hr : s.runState = .ready) (p : Phase) : (s.withPhase p).Inv :=
  (State.inv_iff_of_ready (s := s.withPhase p) hr).2 ((State.inv_iff_of_ready hr).1 h)

theorem slot_inv {n : Nat} (h : s.Inv) (hr : s.runState = .ready) (ht : slot n s = .next t) : t.Inv := by
  have hw := h.withPhase hr (.slots n)
  obtain ⟨_, he⟩ | ⟨hp, he⟩ := slot_cases n s
  · cases he.symm.trans ht
    exact hw
  · exact runInstr_inv hw hr hp (he.symm.trans ht)

@[simp] theorem State.closeTick_runState (s : State) : s.closeTick.runState = s.runState := by
  simp [State.closeTick, State.toneStage, State.timerStage]

@[simp] theorem State.closeTick_fault (s : State) : s.closeTick.fault = s.fault := by
  simp [State.closeTick, State.toneStage, State.timerStage]

@[simp] theorem State.closeTick_glyphs (s : State) : s.closeTick.glyphs = s.glyphs := by
  simp [State.closeTick, State.toneStage, State.timerStage]

@[simp] theorem State.readyInv_closeTick : s.closeTick.ReadyInv ↔ s.ReadyInv := by
  simp [State.ReadyInv, State.closeTick, State.toneStage, State.timerStage]

theorem State.Inv.closeTick (h : s.Inv) (hr : s.runState = .ready) : s.closeTick.Inv := by
  rw [State.inv_iff_of_ready (by simpa using hr)]
  simpa using (State.inv_iff_of_ready hr).1 h

/-! ### The host's calls -/

/-- The invariant reads neither SPEED nor the last result nor the script. -/
theorem State.Inv.setHostFields (h : s.Inv) (n : Nat) (r : Option CallResult) (c : List HostCall) :
    ({ s with speed := n, lastResult := r, script := c } : State).Inv := { h with }

/-- reset() establishes the invariant from every state (R271). -/
theorem State.hostReset_inv (s : State) : s.hostReset.Inv where
  memWf := rfl
  pauseIffPending := by simp
  stackDepth := by simp
  faultedIffFault := by simp
  idleIsReset _ := by simp
  faultedNotPaused _ := rfl
  tickIsReady hph := absurd rfl hph
  pcBound := by simp
  stackBound := by simp

/-- An accepted load is a reset, a copy and Ready; a rejected one changes the last result only (R274, R276). -/
theorem State.Inv.load (h : s.Inv) (p : List Byte) : (s.load p).Inv := by
  unfold State.load
  split
  · exact (State.inv_iff_of_ready rfl).2 ⟨s.hostReset_inv.readyInv.store Config.loadBase p, rfl⟩
  · exact h.setHostFields s.speed _ s.script

theorem State.Inv.beginTick (h : s.Inv) : s.beginTick.Inv := by
  unfold State.beginTick
  split
  next => exact h.setHostFields s.speed _ s.script
  next => exact h.setHostFields s.speed _ s.script
  next hr => exact h.withPhase hr _

/-- A key is pending only in Ready: PAUSE is false in Idle and in Faulted (R39 (a), (d), (e)). -/
theorem State.Inv.ready_of_pending (h : s.Inv) (hk : s.pendingKey ≠ none) : s.runState = .ready := by
  have hp : s.pause ≠ false := by simp [h.pauseIffPending.2 hk]
  cases hr : s.runState with
  | ready => rfl
  | idle => exact absurd (h.idleIsReset hr).1 hp
  | faulted => exact absurd (h.faultedNotPaused hr) hp

theorem State.Inv.keyPress (h : s.Inv) (k : Key) : (s.keyPress k).Inv := by
  unfold State.keyPress
  split
  next x hx =>
    have hr := h.ready_of_pending (by simp [hx])
    obtain ⟨hf, hn⟩ := (State.inv_iff_of_ready hr).1 h
    refine (State.inv_iff_of_ready ?_).2 ⟨{ hf with pauseIffPending := by simp }, hn⟩
    exact hr
  next => exact h

theorem State.Inv.perform (h : s.Inv) (c : HostCall) : (s.perform c).Inv := by
  cases c with
  | load p => exact h.load p
  | tick => exact h.beginTick
  | reset => exact s.hostReset_inv.setHostFields s.speed none s.script
  | setSpeed n => exact h.setHostFields n none s.script
  | keyPress k => exact (h.keyPress k).setHostFields (s.keyPress k).speed none (s.keyPress k).script

theorem State.Inv.hostTurn (h : s.Inv) : s.hostTurn.Inv := by
  unfold State.hostTurn
  split
  next => exact h.perform .tick
  next c rest _ => exact (h.setHostFields s.speed s.lastResult rest).perform c

/-! ### P_GLYPHS is a parameter: no transition writes it (R7) -/

theorem exec_glyphs (i : Instr) (ht : exec i s = .next t) : t.glyphs = s.glyphs := by
  obtain ⟨f, rfl⟩ | hk := exec_cases i s t ht
  · rfl
  · rw [hk]

theorem runInstr_glyphs (ht : runInstr s = .next t) : t.glyphs = s.glyphs := by
  obtain ⟨_, he⟩ | ⟨_, _, _, he⟩ | ⟨_, i, _, he⟩ := runInstr_cases s
  · cases he.symm.trans ht
    rfl
  · cases he.symm.trans ht
    rfl
  · exact exec_glyphs i (he.symm.trans ht)

theorem slot_glyphs {n : Nat} (ht : slot n s = .next t) : t.glyphs = s.glyphs := by
  obtain ⟨_, he⟩ | ⟨_, he⟩ := slot_cases n s
  · cases he.symm.trans ht
    rfl
  · exact runInstr_glyphs (s := s.withPhase (.slots n)) (he.symm.trans ht)

@[simp] theorem State.load_glyphs (s : State) (p : List Byte) : (s.load p).glyphs = s.glyphs := by
  unfold State.load
  split <;> rfl

@[simp] theorem State.beginTick_glyphs (s : State) : s.beginTick.glyphs = s.glyphs := by
  unfold State.beginTick
  split <;> rfl

@[simp] theorem State.keyPress_glyphs (s : State) (k : Key) : (s.keyPress k).glyphs = s.glyphs := by
  unfold State.keyPress
  split <;> rfl

@[simp] theorem State.perform_glyphs (s : State) (c : HostCall) : (s.perform c).glyphs = s.glyphs := by
  cases c <;> simp [State.perform]

@[simp] theorem State.hostTurn_glyphs (s : State) : s.hostTurn.glyphs = s.glyphs := by
  unfold State.hostTurn
  split <;> simp

theorem step_glyphs (ht : step s = .next t) : t.glyphs = s.glyphs := by
  cases hph : s.phase with
  | between =>
    cases (step_between s hph).symm.trans ht
    exact s.hostTurn_glyphs
  | slots n =>
    cases n with
    | zero =>
      cases (step_slots_zero s hph).symm.trans ht
      exact s.closeTick_glyphs
    | succ n => exact slot_glyphs ((step_slots_succ s n hph).symm.trans ht)

/-! ### The step -/

/-- By the scheduler's phase; inside a tick the block is Ready. -/
theorem step_inv (h : s.Inv) (ht : step s = .next t) : t.Inv := by
  cases hph : s.phase with
  | between =>
    cases (step_between s hph).symm.trans ht
    exact h.hostTurn
  | slots n =>
    have hr := h.tickIsReady (by simp [hph])
    cases n with
    | zero =>
      cases (step_slots_zero s hph).symm.trans ht
      exact h.closeTick hr
    | succ n => exact slot_inv h hr ((step_slots_succ s n hph).symm.trans ht)

/-- Settles O54, by the scheduler's phase: the host's calls, the slot and the closing stages each keep the invariant. -/
theorem invariantKeptByStep : Obligations.InvariantKeptByStep := by
  unfold Obligations.InvariantKeptByStep
  exact fun _ _ h ht => ⟨step_inv h ht, step_glyphs ht⟩

end Sys2Proof.Machine
end

section
/-!
PROOFS. RND writes the run's next random byte, masked (42_alu.md R153; O28).
-/

namespace Sys2Proof.Machine

/-- Cxkk is RND x, kk (R84). -/
theorem decode_encodeXkk_rnd (x : Reg) (kk : Byte) : decode (encodeXkk 0xC x kk) = .ok (.rnd x kk) := by
  obtain ⟨hop, hx, hkk⟩ := fieldsOf_encodeXkk 0xC#4 x kk
  simp [decode, decodeFields, hop, hx, hkk]

/-- V[x] after RND on the draw `b`. -/
@[simp] theorem State.rndWith_reg_self (s : State) (b : Byte) (x : Reg) (kk : Byte) : (s.rndWith b x kk).reg x = b &&& kk :=
  State.reg_setReg_self _ x _

theorem State.rndWith_reg_other (s : State) (b : Byte) (x r : Reg) (kk : Byte) (h : r ≠ x) :
    (s.rndWith b x kk).reg r = s.reg r :=
  State.reg_setReg_other _ x r _ h

/-- Settles O28: the state RND leaves is `rndWith` on the run's next draw. -/
theorem randomByteMasked : Obligations.RandomByteMasked := by
  unfold Obligations.RandomByteMasked
  intro x kk s
  refine ⟨decode_encodeXkk_rnd x kk, s.rndWith (Config.randomByte s.draws) x kk, rfl, s.rndWith_reg_self _ x kk, ?_, ?_, rfl⟩
  · intro k hk
    simp [hk]
  · exact fun r hr => s.rndWith_reg_other _ x r kk hr

end Sys2Proof.Machine
end

section
/-!
PROOFS. The created state, for any glyph bytes (00_scope.md R7, 70_reset_and_hazards.md R270, R272; O52).
-/

namespace Sys2Proof.Machine

/-- The created state is what reset leaves (R270, R271). -/
@[simp] theorem State.hostReset_powerUp (g : GlyphTable) : (State.powerUp g).hostReset = State.powerUp g := rfl

/-- P_GLYPHS stands at 0x000 to 0x04F from power-up on (R272). -/
theorem State.byte_powerUp_glyph (g : GlyphTable) (a : Nat) (h : a < 0x050) : (State.powerUp g).byte a = g[a] :=
  Memory.initial_glyph g a h

/-- Settles O52: memory lists no cell at power-up, so it reads as P_GLYPHS; the default's first and last glyph are evaluated. -/
theorem powerUpState : Obligations.PowerUpState := by
  unfold Obligations.PowerUpState
  refine ⟨fun g => ⟨State.hostReset_powerUp g, rfl, State.byte_powerUp_glyph g, rfl, rfl, rfl, rfl⟩, rfl, ?_, ?_⟩
  · decide
  · decide

end Sys2Proof.Machine
end

section
/-!
PROOFS. A tick while PAUSE is true (40_cycle.md R101, R107; O11): its slots are used up one by one, and its closing stages follow.
-/

namespace Sys2Proof.Machine

/-- A slot of a paused tick only counts (R101). -/
theorem step_of_paused {s : State} {n : Nat} (hph : s.phase = .slots (n + 1)) (hp : s.pause = true) :
    step s = .next (s.withPhase (.slots n)) := by
  rw [step_slots_succ s n hph, slot, if_pos hp]

/-- While PAUSE is true a run through the `n` slots left of a tick, and `k` steps more, is those `k` steps from no slot left. -/
theorem run_slots_of_paused (n k : Nat) (s : State) (hph : s.phase = .slots n) (hp : s.pause = true) :
    Host.Core.run core (n + k) s = Host.Core.run core k (s.withPhase (.slots 0)) := by
  induction n generalizing s with
  | zero =>
    have hs : s.withPhase (.slots 0) = s := by rw [← hph, State.withPhase]
    rw [hs, Nat.zero_add]
  | succ n ih =>
    calc Host.Core.run core (n + 1 + k) s
      _ = Host.Core.run core (n + k + 1) s := by rw [Nat.add_right_comm]
      _ = Host.Core.run core (n + k) (s.withPhase (.slots n)) := run_succ core _ s _ (step_of_paused hph hp)
      _ = Host.Core.run core k (s.withPhase (.slots 0)) := ih (s.withPhase (.slots n)) rfl hp

/-- One timer after the timer stage (R243). -/
theorem countDown_toNat (b : Byte) : (countDown b).toNat = b.toNat - 1 := by
  unfold countDown
  split
  · bv_omega
  · omega

/-- The tone sounds after the timer stage exactly when ST was above 1 before it (R243, R245). -/
theorem countDown_pos_iff (b : Byte) : 0 < (countDown b).toNat ↔ 1 < b.toNat := by
  rw [countDown_toNat]
  omega

/-- What the closing stages leave (R107). -/
theorem State.closeTick_eq (s : State) :
    s.closeTick = { s with
      dt := countDown s.dt, st := countDown s.st, phase := .between, lastResult := some .ok
      history := .present :: (if 1 < s.st.toNat then .toneStart else .toneStop) :: s.history } := by
  simp only [← countDown_pos_iff]
  rfl

/-- Settles O11: the slots left are used up by induction on their number, and the step after the last one is `closeTick`. -/
theorem pausedTickOnlyCloses : Obligations.PausedTickOnlyCloses := by
  unfold Obligations.PausedTickOnlyCloses
  intro n s hph hp
  have hclose : Host.Core.run core (n + 1) s = .next s.closeTick :=
    calc Host.Core.run core (n + 1) s
      _ = Host.Core.run core 1 (s.withPhase (.slots 0)) := run_slots_of_paused n 1 s hph hp
      _ = .next s.closeTick := run_succ core 0 _ _ (step_slots_zero (s.withPhase (.slots 0)) rfl)
  refine ⟨run_slots_of_paused n 0 s hph hp, s.closeTick, hclose, ?_, ?_, ?_⟩
  · exact countDown_toNat s.dt
  · exact countDown_toNat s.st
  · exact s.closeTick_eq

end Sys2Proof.Machine
end

section
/-!
PROOFS. Which instruction writes which part of the state (10_state.md R23 to R36, 45_io.md R209; O57, O58). An instruction takes a
fault or leaves the state `effect`, so that the frame of each field is one case split over the instructions, without the faults.
-/

namespace Sys2Proof.Machine

variable {s t : State}

/-! ### What an instruction leaves when it takes no fault -/

/-- The state an instruction leaves when it takes no fault: for the six that can fault the state after their check passed, for
every other the state that exec answers. -/
def effect (i : Instr) (s : State) : State :=
  match i with
  | .ret => (s.setStack s.stack.dropLast).jump (s.stack.getLast?.getD 0)
  | .callAddr nnn => (s.setStack (pushed s.stack (s.pc + 2))).jump (zext16 nnn)
  | .drw x y n => s.drawn x y n
  | .ldBVx x => s.advance.store s.i.toNat (bcdDigits (s.reg x))
  | .ldIVx x => s.advance.store s.i.toNat (s.lowRegs x)
  | .ldVxI x => s.advance.setRegs (s.loadedRegs x)
  | i =>
    match exec i s with
    | .next t => t
    | _ => s

/-- Every instruction takes a fault or leaves its effect. -/
theorem exec_effect {i : Instr} (h : exec i s = .next t) : (∃ f, t = s.takeFault f) ∨ t = effect i s := by
  cases i <;> simp only [exec] at h
  case ret =>
    unfold execRet at h
    split at h <;> cases h
    next => exact .inl ⟨_, rfl⟩
    next top htop => exact .inr (by simp [effect, htop])
  case callAddr =>
    unfold execCallAddr at h
    split at h <;> cases h
    next => exact .inl ⟨_, rfl⟩
    next => exact .inr rfl
  case drw =>
    unfold execDrw at h
    split at h
    next => exact .inr (by cases h; rfl)
    next => exact s.checked_next _ t _ _ h
  case ldBVx | ldIVx | ldVxI => exact s.checked_next _ t _ _ h
  all_goals exact .inr (by cases h; rfl)

/-! ### The general registers (R23) -/

/-- LD_Vx_I keeps the registers above x (R175). -/
theorem State.reg_setRegs_loadedRegs_above {x r : Reg} (u : State) (h : ¬ r.val ≤ x.val) :
    (u.setRegs (s.loadedRegs x)).reg r = s.reg r :=
  (s.loadedRegs_getElem x r).trans (if_neg h)

/-- An instruction leaves every register outside its row of R23's list unchanged. -/
theorem reg_effect_of_not_writes {i : Instr} {r : Reg} (h : writesRegister i r = false) : (effect i s).reg r = s.reg r := by
  cases i
  case ldVxByte x _ | addVxByte x _ | ldVxVy x _ | orVxVy x _ | andVxVy x _ | xorVxVy x _ | ldVxDt x =>
    exact s.advance.reg_setReg_other x r _ (by simpa [writesRegister] using h)
  case rnd x kk => exact s.rndWith_reg_other _ x r kk (by simpa [writesRegister] using h)
  case addVxVy x _ | subVxVy x _ | shr x _ | subn x _ | shl x _ =>
    obtain ⟨hx, hf⟩ : r ≠ x ∧ r ≠ 15 := by simpa [writesRegister] using h
    exact s.advance.writeback_reg_other x r _ _ hx hf
  case drw => exact State.reg_setReg_other _ 15 r _ (by simpa [writesRegister] using h)
  case ldVxI => exact State.reg_setRegs_loadedRegs_above s.advance (by simpa [writesRegister] using h)
  all_goals rfl

/-- The key-press event writes no register but the pending one (R207). -/
theorem State.reg_keyPress_of_not_pending {r : Reg} (k : Key) (h : s.pendingKey ≠ some r) : (s.keyPress k).reg r = s.reg r := by
  unfold State.keyPress
  split
  next x hx => exact s.reg_setReg_other x r _ fun hr => h (hr ▸ hx)
  next => rfl

/-- Settles O57: fault entry writes no register, and an effect writes those of its row of R23's list. -/
theorem registerWriters : Obligations.RegisterWriters := by
  unfold Obligations.RegisterWriters
  refine ⟨fun i s t r ht hr => ?_, fun s k r => s.reg_keyPress_of_not_pending k⟩
  obtain ⟨f, rfl⟩ | rfl := exec_effect ht
  · exact s.reg_takeFault f r
  · exact reg_effect_of_not_writes hr

/-! ### The rest of the state

Each frame names the instructions that write its field. The five that end in a writeback write registers only, and every other one
leaves the field as it was by definition. -/

section Writeback

variable (u : State) (x : Reg) (r f : Byte)

@[simp] theorem State.writeback_i : (u.writeback x r f).i = u.i := by rw [u.writeback_frame]
@[simp] theorem State.writeback_stack : (u.writeback x r f).stack = u.stack := by rw [u.writeback_frame]
@[simp] theorem State.writeback_dt : (u.writeback x r f).dt = u.dt := by rw [u.writeback_frame]
@[simp] theorem State.writeback_st : (u.writeback x r f).st = u.st := by rw [u.writeback_frame]
@[simp] theorem State.writeback_plane : (u.writeback x r f).plane = u.plane := by rw [u.writeback_frame]
@[simp] theorem State.writeback_pause : (u.writeback x r f).pause = u.pause := by rw [u.writeback_frame]
@[simp] theorem State.writeback_pendingKey : (u.writeback x r f).pendingKey = u.pendingKey := by rw [u.writeback_frame]
@[simp] theorem State.writeback_history : (u.writeback x r f).history = u.history := by rw [u.writeback_frame]
@[simp] theorem State.writeback_draws : (u.writeback x r f).draws = u.draws := by rw [u.writeback_frame]
@[simp] theorem State.byte_writeback (k : Nat) : (u.writeback x r f).byte k = u.byte k := by
  rw [u.writeback_frame]
  rfl

end Writeback

/-- R24. -/
theorem effect_i (i : Instr) (s : State) :
    (effect i s).i = s.i ∨ (∃ nnn, i = .ldIAddr nnn) ∨ (∃ x, i = .addIVx x) ∨ ∃ x, i = .ldFVx x := by
  cases i
  case ldIAddr nnn => exact .inr (.inl ⟨nnn, rfl⟩)
  case addIVx x => exact .inr (.inr (.inl ⟨x, rfl⟩))
  case ldFVx x => exact .inr (.inr (.inr ⟨x, rfl⟩))
  case addVxVy | subVxVy | shr | subn | shl => exact .inl (State.writeback_i _ _ _ _)
  case ldVxI => exact .inl (s.advance.setRegs_i _)
  all_goals exact .inl rfl

/-- R27. -/
theorem effect_stack (i : Instr) (s : State) : (effect i s).stack = s.stack ∨ i = .ret ∨ ∃ nnn, i = .callAddr nnn := by
  cases i
  case ret => exact .inr (.inl rfl)
  case callAddr nnn => exact .inr (.inr ⟨nnn, rfl⟩)
  case addVxVy | subVxVy | shr | subn | shl => exact .inl (State.writeback_stack _ _ _ _)
  case ldVxI => exact .inl (s.advance.setRegs_stack _)
  all_goals exact .inl rfl

/-- R28. -/
theorem effect_dt (i : Instr) (s : State) : (effect i s).dt = s.dt ∨ ∃ x, i = .ldDtVx x := by
  cases i
  case ldDtVx x => exact .inr ⟨x, rfl⟩
  case addVxVy | subVxVy | shr | subn | shl => exact .inl (State.writeback_dt _ _ _ _)
  case ldVxI => exact .inl (s.advance.setRegs_dt _)
  all_goals exact .inl rfl

/-- R28. -/
theorem effect_st (i : Instr) (s : State) : (effect i s).st = s.st ∨ ∃ x, i = .ldStVx x := by
  cases i
  case ldStVx x => exact .inr ⟨x, rfl⟩
  case addVxVy | subVxVy | shr | subn | shl => exact .inl (State.writeback_st _ _ _ _)
  case ldVxI => exact .inl (s.advance.setRegs_st _)
  all_goals exact .inl rfl

/-- R65: only LD_B_Vx and LD_I_Vx store, the bytes of their list. -/
theorem effect_bytes (i : Instr) (s : State) : SameBytesOutside s.i.toNat (storedBytes i) s (effect i s) := by
  intro b hb
  cases i
  case ldBVx => exact s.advance.byte_store_outside _ _ b hb
  case ldIVx x => exact s.advance.byte_store_outside _ _ b (by rwa [s.lowRegs_length x])
  case addVxVy | subVxVy | shr | subn | shl => exact State.byte_writeback _ _ _ _ b
  case ldVxI => exact s.advance.byte_setRegs _ b
  all_goals rfl

/-- R36. -/
theorem effect_plane (i : Instr) (s : State) : (effect i s).plane = s.plane ∨ i = .cls ∨ ∃ x y n, i = .drw x y n := by
  cases i
  case cls => exact .inr (.inl rfl)
  case drw x y n => exact .inr (.inr ⟨x, y, n, rfl⟩)
  case addVxVy | subVxVy | shr | subn | shl => exact .inl (State.writeback_plane _ _ _ _)
  case ldVxI => exact .inl (s.advance.setRegs_plane _)
  all_goals exact .inl rfl

/-- R32, R33. -/
theorem effect_wait (i : Instr) (s : State) :
    ((effect i s).pause = s.pause ∧ (effect i s).pendingKey = s.pendingKey) ∨ ∃ x, i = .ldVxK x := by
  cases i
  case ldVxK x => exact .inr ⟨x, rfl⟩
  case addVxVy | subVxVy | shr | subn | shl => exact .inl ⟨State.writeback_pause _ _ _ _, State.writeback_pendingKey _ _ _ _⟩
  case ldVxI => exact .inl ⟨s.advance.setRegs_pause _, s.advance.setRegs_pendingKey _⟩
  all_goals exact .inl ⟨rfl, rfl⟩

/-- R209. -/
theorem effect_history (i : Instr) (s : State) :
    (effect i s).history = s.history ∨ i = .cls ∨ (∃ x y n, i = .drw x y n) ∨ (∃ x, i = .skpVx x) ∨
      (∃ x, i = .sknpVx x) ∨ ∃ x, i = .ldVxK x := by
  cases i
  case cls => exact .inr (.inl rfl)
  case drw x y n => exact .inr (.inr (.inl ⟨x, y, n, rfl⟩))
  case skpVx x => exact .inr (.inr (.inr (.inl ⟨x, rfl⟩)))
  case sknpVx x => exact .inr (.inr (.inr (.inr (.inl ⟨x, rfl⟩))))
  case ldVxK x => exact .inr (.inr (.inr (.inr (.inr ⟨x, rfl⟩))))
  case addVxVy | subVxVy | shr | subn | shl => exact .inl (State.writeback_history _ _ _ _)
  case ldVxI => exact .inl (s.advance.setRegs_history _)
  all_goals exact .inl rfl

/-- R8, R153, R203. -/
theorem effect_draws (i : Instr) (s : State) :
    (effect i s).draws = s.draws ∨ (∃ x kk, i = .rnd x kk) ∨ (∃ x, i = .skpVx x) ∨ ∃ x, i = .sknpVx x := by
  cases i
  case rnd x kk => exact .inr (.inl ⟨x, kk, rfl⟩)
  case skpVx x => exact .inr (.inr (.inl ⟨x, rfl⟩))
  case sknpVx x => exact .inr (.inr (.inr ⟨x, rfl⟩))
  case addVxVy | subVxVy | shr | subn | shl => exact .inl (State.writeback_draws _ _ _ _)
  case ldVxI => exact .inl (s.advance.setRegs_draws _)
  all_goals exact .inl rfl

/-- SPEED and the script are the host's: no instruction writes them, faulting or not (R31). -/
theorem exec_speed_script {i : Instr} (ht : exec i s = .next t) : t.speed = s.speed ∧ t.script = s.script := by
  obtain ⟨f, rfl⟩ | hk := exec_cases i s t ht
  · exact ⟨rfl, rfl⟩
  · rw [hk]
    exact ⟨rfl, rfl⟩

/-- Settles O58: fault entry writes none of these fields, and an effect has one frame per field. -/
theorem stateWriters : Obligations.StateWriters := by
  unfold Obligations.StateWriters
  intro i s t ht
  obtain ⟨hspeed, hscript⟩ := exec_speed_script ht
  have hglyphs := exec_glyphs i ht
  obtain ⟨f, rfl⟩ | rfl := exec_effect ht
  · exact ⟨.inl rfl, .inl rfl, .inl rfl, .inl rfl, fun _ _ => rfl, .inl rfl, .inl ⟨rfl, rfl⟩, .inl rfl, .inl rfl,
      hspeed, hglyphs, hscript⟩
  · exact ⟨effect_i i s, effect_stack i s, effect_dt i s, effect_st i s, effect_bytes i s, effect_plane i s, effect_wait i s,
      effect_history i s, effect_draws i s, hspeed, hglyphs, hscript⟩

end Sys2Proof.Machine
end

section
/-!
PROOFS. Between ticks a step performs the host's next call (40_cycle.md R111, log entry 9; O49, O50), and the invariant of
10_state.md R39 at power-up (O53).
-/

namespace Sys2Proof.Machine

variable {s : State}

/-! ### The host's turn -/

/-- Between ticks a step takes the next call of the script and performs it. -/
theorem step_of_script_cons {c : HostCall} {rest : List HostCall} (hph : s.phase = .between) (hs : s.script = c :: rest) :
    step s = .next (({ s with script := rest } : State).perform c) := by
  rw [step_between s hph, State.hostTurn, hs]

/-- Between ticks, with no call left, the driver ticks. -/
theorem step_of_script_nil (hph : s.phase = .between) (hs : s.script = []) : step s = .next s.beginTick := by
  rw [step_between s hph, State.hostTurn, hs]
  rfl

/-! ### The calls neither read nor write the script -/

theorem State.keyPress_withScript (s : State) (k : Key) (c : List HostCall) :
    ({ s with script := c } : State).keyPress k = { s.keyPress k with script := c } := by
  cases hk : s.pendingKey with
  | none => simp [State.keyPress, hk]
  | some x => simp [State.keyPress, hk, State.setReg]

theorem State.load_withScript (s : State) (p : List Byte) (c : List HostCall) :
    ({ s with script := c } : State).load p = { s.load p with script := c } := by
  unfold State.load
  split <;> rfl

/-- Settles O49: the step performs the call at the head of the script, and the call commutes with taking it off. -/
theorem hostCallsPerformed : Obligations.HostCallsPerformed := by
  unfold Obligations.HostCallsPerformed
  intro s rest k p hph
  refine ⟨fun hs => ?_, fun hs => ?_, fun hs => ?_⟩
  · rw [step_of_script_cons hph hs, State.perform, s.keyPress_withScript]
  · rw [step_of_script_cons hph hs]
    rfl
  · rw [step_of_script_cons hph hs, State.perform, s.load_withScript]

/-- In Ready a tick opens SPEED slots (R100, R31). -/
theorem State.beginTick_of_ready (hr : s.runState = .ready) : s.beginTick = s.withPhase (.slots s.speed) := by
  rw [State.beginTick, hr]

/-- Settles O50: the step performs tick or set_speed, and tick is also what the driver calls once the script is empty. -/
theorem tickOpensSlots : Obligations.TickOpensSlots := by
  unfold Obligations.TickOpensSlots
  intro s rest n hph
  refine ⟨fun hs hr => ?_, fun hs => ?_, fun hs hr => ?_⟩
  · rw [step_of_script_cons hph hs, State.perform, State.beginTick_of_ready (s := { s with script := rest }) hr]
    rfl
  · rw [step_of_script_cons hph hs]
    rfl
  · rw [step_of_script_nil hph hs, State.beginTick_of_ready hr]
    rfl

/-! ### The invariant at power-up -/

/-- The created state is what reset leaves, and reset establishes the invariant (R39, R270, R271). -/
theorem State.powerUp_inv (g : GlyphTable) : (State.powerUp g).Inv :=
  State.hostReset_powerUp g ▸ (State.powerUp g).hostReset_inv

/-- Settles O53: the model's reset state is the power-up state at the default glyphs. -/
theorem invariantAtReset : Obligations.InvariantAtReset := by
  unfold Obligations.InvariantAtReset
  exact ⟨State.powerUp_inv Config.defaultGlyphs, State.powerUp_inv⟩

end Sys2Proof.Machine
end

section
/-!
PROOFS. The instruction fetch: its byte order and its range check, and code stored where the next slot fetches (20_memory.md R61,
R62, R73, 40_cycle.md R102; O7, O9, O12).
-/

namespace Sys2Proof.Machine

variable {s : State} {n : Nat} {x : Reg} {i : Instr}

/-! ### The bytes of a word (R62) -/

@[simp] theorem highByte_wordOfBytes (hi lo : Byte) : highByte (wordOfBytes hi lo) = hi :=
  BitVec.extractLsb'_append_eq_left

@[simp] theorem lowByte_wordOfBytes (hi lo : Byte) : lowByte (wordOfBytes hi lo) = lo :=
  BitVec.extractLsb'_append_eq_right

/-- Settles O7: the word at `a` is made of the bytes at `a` and `a + 1`, the first one more significant. -/
theorem fetchIsBigEndian : Obligations.FetchIsBigEndian := by
  unfold Obligations.FetchIsBigEndian
  exact fun _ _ => ⟨wordOfBytes_toNat _ _, highByte_wordOfBytes _ _, lowByte_wordOfBytes _ _⟩

/-! ### The slot that runs -/

/-- While PAUSE is false a slot of the tick runs an instruction (R101, R102). -/
theorem step_of_not_paused (hph : s.phase = .slots (n + 1)) (hp : s.pause = false) :
    step s = runInstr (s.withPhase (.slots n)) := by
  rw [step_slots_succ s n hph, slot, if_neg (by simp [hp])]

/-- A fetch that passes 0xFFF faults before memory is read (R61, R102). -/
theorem runInstr_of_fetch_outOfRange (hpc : 0xFFE < s.pc.toNat) :
    runInstr s = .next (s.takeFault (.memoryOutOfRange s.pc (faultAddr s.pc))) := by
  obtain ⟨_, he⟩ | ⟨hle, _⟩ | ⟨hle, _⟩ := runInstr_cases s
  · exact he
  all_goals omega

/-- Inside memory, the instruction that the word at PC decodes to is executed (R102, R105). -/
theorem runInstr_of_decode_ok (hpc : s.pc.toNat ≤ 0xFFE) (hd : decode (s.wordAt s.pc.toNat) = .ok i) : runInstr s = exec i s := by
  obtain ⟨_, _⟩ | ⟨_, _, herr, _⟩ | ⟨_, j, hok, he⟩ := runInstr_cases s
  · omega
  · cases hd.symm.trans herr
  · cases hd.symm.trans hok
    exact he

/-- A slot that is not paused executes the instruction at PC, with one slot fewer left (R102). -/
theorem step_of_decode_ok (hph : s.phase = .slots (n + 1)) (hp : s.pause = false) (hpc : s.pc.toNat ≤ 0xFFE)
    (hd : decode (s.wordAt s.pc.toNat) = .ok i) : step s = exec i (s.withPhase (.slots n)) := by
  rw [step_of_not_paused hph hp]
  exact runInstr_of_decode_ok hpc hd

/-- The reported address as the word that R61 names: max(a, 0x1000). -/
theorem faultAddr_eq_ofNat_max (a : Word) : faultAddr a = BitVec.ofNat 16 (max a.toNat 0x1000) := by
  rw [← faultAddr_toNat, BitVec.ofNat_toNat, BitVec.setWidth_eq]

/-- Settles O9: the step runs the slot, whose fetch faults, and fault entry overwrites the phase that the slot left. -/
theorem fetchRangeFaults : Obligations.FetchRangeFaults := by
  unfold Obligations.FetchRangeFaults EntersFault
  intro s n hph hp hpc
  have hrun := runInstr_of_fetch_outOfRange (s := s.withPhase (.slots n)) (Nat.lt_of_succ_lt_succ hpc)
  rw [step_of_not_paused hph hp, hrun, ← faultAddr_eq_ofNat_max]
  rfl

/-! ### Code that LD_I_Vx stores (R73, R174) -/

/-- LD_I_Vx with its range inside memory (R174). -/
theorem exec_ldIVx_of_inRange (h : s.i.toNat + x.val ≤ 0xFFF) :
    exec (.ldIVx x) s = .next (s.advance.store s.i.toNat (s.lowRegs x)) := by
  have hr : outOfRange s.i (x.val + 1) = false := (outOfRange_eq_false s.i _).2 h
  simp [exec, execLdIVx, State.checked, hr]

/-- Where V0..Vx are stored at `a` the byte at `a + r` is V[r], for every r up to x (R174). -/
theorem State.byte_store_lowRegs (u s : State) {a : Nat} {r : Reg} (h : a + x.val ≤ 0xFFF) (hr : r.val ≤ x.val) :
    (u.store a (s.lowRegs x)).byte (a + r.val) = s.reg r := by
  have hlen := s.lowRegs_length x
  have hlt : r.val < (s.lowRegs x).length := by omega
  rw [u.byte_store a _ _ (by omega), if_pos (by omega), Nat.add_sub_cancel_left, List.getD_eq_getElem _ _ hlt,
    s.lowRegs_getElem x r hlt]

/-- Where V0 and V1 are stored at `a` the word at `a` is made of them (R62, R174). -/
theorem State.wordAt_store_lowRegs (u s : State) {a : Nat} (h : a + x.val ≤ 0xFFF) (hx : 1 ≤ x.val) :
    (u.store a (s.lowRegs x)).wordAt a = wordOfBytes (s.reg 0) (s.reg 1) :=
  congrArg₂ wordOfBytes (u.byte_store_lowRegs s (r := 0) h (Nat.zero_le _)) (u.byte_store_lowRegs s (r := 1) h hx)

/-- Settles O12: the +2 leads to I, where memory now holds V0 and V1, and the next slot reads them there. -/
theorem storedCodeIsRun : Obligations.StoredCodeIsRun := by
  unfold Obligations.StoredCodeIsRun
  intro s n x i hph hp hrange hx hnext hd
  have hpc : (s.advance.store s.i.toNat (s.lowRegs x)).pc.toNat = s.i.toNat := by
    rw [State.store_pc, State.advance_pc]
    bv_omega
  refine ⟨_, exec_ldIVx_of_inRange hrange, step_of_decode_ok hph hp (by omega) ?_⟩
  rw [hpc, s.advance.wordAt_store_lowRegs s hrange hx, hd]

end Sys2Proof.Machine
end

section
/-!
PROOFS. Encoder and decoder are inverse to each other, and both follow the opcode table (30_encoding.md R81, R84 to R91, R99;
O1 to O6). The key is that a word is put together from its own fields: so everything the decoder can answer is said once
(`decode_answers`), and so is that only the words of a row's instructions match the row (`exists_encode_of_mask`). As a word has
one decoding, the rows are disjoint.
-/

namespace Sys2Proof

open BitVec (eq_of_toNat_eq extractLsb'_append_extractLsb'_eq_extractLsb' extractLsb'_eq_self)

/-! ### Every instruction is the decoding of its word -/

/-- By the form of the instruction's word, and in groups 8, E and F by the sub-opcode too (R81, R85 to R90). -/
theorem decode_encode (i : Instr) : decode (encode i) = .ok i := by
  cases i <;> simp only [encode, decode]
  case cls | ret => rfl
  case jpAddr | callAddr | ldIAddr | jpV0Addr => simp [decodeFields, fieldsOf_encodeNnn]
  case seVxByte | sneVxByte | ldVxByte | addVxByte | rnd => simp [decodeFields, fieldsOf_encodeXkk]
  case seVxVy | sneVxVy | drw => simp [decodeFields, fieldsOf_encodeXyn]
  case ldVxVy | orVxVy | andVxVy | xorVxVy | addVxVy | subVxVy | shr | subn | shl =>
    simp [decodeFields, decodeGroup8, fieldsOf_encodeXyn]
  case skpVx | sknpVx => simp [decodeFields, decodeGroupE, fieldsOf_encodeXkk]
  case ldVxDt | ldVxK | ldDtVx | ldStVx | addIVx | ldFVx | ldBVx | ldIVx | ldVxI =>
    simp [decodeFields, decodeGroupF, fieldsOf_encodeXkk]

/-- Settles O3, by the form of the instruction's word. -/
theorem decodeOfEncode : Obligations.DecodeOfEncode := by
  unfold Obligations.DecodeOfEncode
  exact fun i => ⟨i.wellFormed_all, decode_encode i⟩

/-! ### A word is put together from its fields (R81) -/

section Fields

variable {w : Word} {op n op' n' : Nibble} {x y x' y' : Reg} {kk kk' : Byte} {nnn nnn' : Addr12}

theorem encodeNnn_fieldsOf (w : Word) : encodeNnn (fieldsOf w).op (fieldsOf w).nnn = w := by
  change w.extractLsb' 12 4 ++ w.extractLsb' 0 12 = w
  rw [extractLsb'_append_extractLsb'_eq_extractLsb' (by rfl), extractLsb'_eq_self]

theorem encodeXkk_fieldsOf (w : Word) : encodeXkk (fieldsOf w).op (fieldsOf w).x (fieldsOf w).kk = w := by
  change w.extractLsb' 12 4 ++ w.extractLsb' 8 4 ++ w.extractLsb' 0 8 = w
  rw [extractLsb'_append_extractLsb'_eq_extractLsb' (by rfl), extractLsb'_append_extractLsb'_eq_extractLsb' (by rfl),
    extractLsb'_eq_self]

theorem encodeXyn_fieldsOf (w : Word) : encodeXyn (fieldsOf w).op (fieldsOf w).x (fieldsOf w).y (fieldsOf w).n = w := by
  change w.extractLsb' 12 4 ++ w.extractLsb' 8 4 ++ w.extractLsb' 4 4 ++ w.extractLsb' 0 4 = w
  rw [extractLsb'_append_extractLsb'_eq_extractLsb' (by rfl), extractLsb'_append_extractLsb'_eq_extractLsb' (by rfl),
    extractLsb'_append_extractLsb'_eq_extractLsb' (by rfl), extractLsb'_eq_self]

theorem encodeNnn_eq_of_op (hop : (fieldsOf w).op = op) : encodeNnn op (fieldsOf w).nnn = w :=
  hop ▸ encodeNnn_fieldsOf w

theorem encodeXkk_eq_of_op_kk (hop : (fieldsOf w).op = op) (hkk : (fieldsOf w).kk = kk) : encodeXkk op (fieldsOf w).x kk = w :=
  hop ▸ hkk ▸ encodeXkk_fieldsOf w

theorem encodeXyn_eq_of_op_n (hop : (fieldsOf w).op = op) (hn : (fieldsOf w).n = n) :
    encodeXyn op (fieldsOf w).x (fieldsOf w).y n = w :=
  hop ▸ hn ▸ encodeXyn_fieldsOf w

/-! The parts that a word is put together from are determined by it. -/

theorem encodeNnn_inj (h : encodeNnn op nnn = encodeNnn op' nnn') : op = op' ∧ nnn = nnn' := by
  have hf := congrArg fieldsOf h
  constructor
  · simpa [fieldsOf_encodeNnn] using congrArg Fields.op hf
  · simpa [fieldsOf_encodeNnn] using congrArg Fields.nnn hf

theorem encodeXkk_inj (h : encodeXkk op x kk = encodeXkk op' x' kk') : op = op' ∧ x = x' ∧ kk = kk' := by
  have hf := congrArg fieldsOf h
  refine ⟨?_, ?_, ?_⟩
  · simpa [fieldsOf_encodeXkk] using congrArg Fields.op hf
  · simpa [fieldsOf_encodeXkk] using congrArg Fields.x hf
  · simpa [fieldsOf_encodeXkk] using congrArg Fields.kk hf

theorem encodeXyn_inj (h : encodeXyn op x y n = encodeXyn op' x' y' n') : op = op' ∧ x = x' ∧ y = y' ∧ n = n' := by
  have hf := congrArg fieldsOf h
  refine ⟨?_, ?_, ?_, ?_⟩
  · simpa [fieldsOf_encodeXyn] using congrArg Fields.op hf
  · simpa [fieldsOf_encodeXyn] using congrArg Fields.x hf
  · simpa [fieldsOf_encodeXyn] using congrArg Fields.y hf
  · simpa [fieldsOf_encodeXyn] using congrArg Fields.n hf

/-! ### Everything the decoder can answer -/

/-- What the decoder may answer for a word: an instruction that is encoded to it, or the rejection of that word. -/
def Answers (w : Word) : Except DecodeReject Instr → Prop
  | .ok i => encode i = w
  | .error e => e = .decodeError w

theorem decodeGroup0_answers (w : Word) : Answers w (decodeGroup0 w) := by
  unfold decodeGroup0
  split_ifs with hcls hret
  · exact hcls.symm
  · exact hret.symm
  · rfl

/-- By n (R88): the last case is the rejection. -/
theorem decodeGroup8_answers (hop : (fieldsOf w).op = 8) : Answers w (decodeGroup8 w (fieldsOf w)) := by
  unfold decodeGroup8
  split
  case h_10 => rfl
  all_goals
    rename_i hn
    exact encodeXyn_eq_of_op_n hop (eq_of_toNat_eq hn)

/-- By kk (R89): the last case is the rejection. -/
theorem decodeGroupE_answers (hop : (fieldsOf w).op = 14) : Answers w (decodeGroupE w (fieldsOf w)) := by
  unfold decodeGroupE
  split
  case h_1 hkk | h_2 hkk => exact encodeXkk_eq_of_op_kk hop (eq_of_toNat_eq hkk)
  case h_3 => rfl

/-- By kk (R90): the last case is the rejection. -/
theorem decodeGroupF_answers (hop : (fieldsOf w).op = 15) : Answers w (decodeGroupF w (fieldsOf w)) := by
  unfold decodeGroupF
  split
  case h_10 => rfl
  all_goals
    rename_i hkk
    exact encodeXkk_eq_of_op_kk hop (eq_of_toNat_eq hkk)

/-- By the top nibble (R85): `h_k` is nibble k - 1, and `h_17` is reached by none. -/
theorem decode_answers (w : Word) : Answers w (decode w) := by
  unfold decode decodeFields
  split
  case h_1 => exact decodeGroup0_answers w
  case h_2 hop | h_3 hop | h_11 hop | h_12 hop => exact encodeNnn_eq_of_op (eq_of_toNat_eq hop)
  case h_4 hop | h_5 hop | h_7 hop | h_8 hop | h_13 hop => exact encodeXkk_eq_of_op_kk (eq_of_toNat_eq hop) rfl
  case h_6 hop | h_10 hop =>
    split_ifs with hn
    · exact encodeXyn_eq_of_op_n (eq_of_toNat_eq hop) hn
    · rfl
  case h_9 hop => exact decodeGroup8_answers (eq_of_toNat_eq hop)
  case h_14 hop => exact encodeXyn_eq_of_op_n (eq_of_toNat_eq hop) rfl
  case h_15 hop => exact decodeGroupE_answers (eq_of_toNat_eq hop)
  case h_16 hop => exact decodeGroupF_answers (eq_of_toNat_eq hop)
  case h_17 => rfl

theorem encode_of_decode {i : Instr} (h : decode w = .ok i) : encode i = w := by
  simpa [h, Answers] using decode_answers w

theorem decodeError_of_decode {e : DecodeReject} (h : decode w = .error e) : e = .decodeError w := by
  simpa [h, Answers] using decode_answers w

/-! ### The words that match a row (R84)

Under a row's mask the operands of a word are zero. -/

theorem encodeNnn_eq_of_mask (h : w &&& 0xF000#16 = encodeNnn op 0) : encodeNnn op (fieldsOf w).nnn = w := by
  rw [← encodeNnn_fieldsOf w, Laws.encodeNnn_mask] at h
  obtain ⟨hop, -⟩ := encodeNnn_inj (nnn := 0) h
  exact encodeNnn_eq_of_op hop

theorem encodeXkk_eq_of_mask (h : w &&& 0xF000#16 = encodeXkk op 0 0) : encodeXkk op (fieldsOf w).x (fieldsOf w).kk = w := by
  rw [← encodeXkk_fieldsOf w, Laws.encodeXkk_mask] at h
  obtain ⟨hop, -, -⟩ := encodeXkk_inj (x := 0) (kk := 0) h
  exact encodeXkk_eq_of_op_kk hop rfl

theorem encodeXkk_eq_of_mask_kk (h : w &&& 0xF0FF#16 = encodeXkk op 0 kk) : encodeXkk op (fieldsOf w).x kk = w := by
  rw [← encodeXkk_fieldsOf w, Laws.encodeXkk_mask_kk] at h
  obtain ⟨hop, -, hkk⟩ := encodeXkk_inj (x := 0) h
  exact encodeXkk_eq_of_op_kk hop hkk

theorem encodeXyn_eq_of_mask (h : w &&& 0xF000#16 = encodeXyn op 0 0 0) :
    encodeXyn op (fieldsOf w).x (fieldsOf w).y (fieldsOf w).n = w := by
  rw [← encodeXyn_fieldsOf w, Laws.encodeXyn_mask] at h
  obtain ⟨hop, -, -, -⟩ := encodeXyn_inj (x := 0) (y := 0) (n := 0) h
  exact encodeXyn_eq_of_op_n hop rfl

theorem encodeXyn_eq_of_mask_n (h : w &&& 0xF00F#16 = encodeXyn op 0 0 n) : encodeXyn op (fieldsOf w).x (fieldsOf w).y n = w := by
  rw [← encodeXyn_fieldsOf w, Laws.encodeXyn_mask_n] at h
  obtain ⟨hop, -, -, hn⟩ := encodeXyn_inj (x := 0) (y := 0) h
  exact encodeXyn_eq_of_op_n hop hn

/-- A word that matches the row of an instruction is the word of an instruction of that row, its operands the word's own fields. -/
theorem exists_encode_of_mask : (i : Instr) → w &&& i.row.mask = i.row.value → ∃ j, encode j = w ∧ j.row = i.row
  | .cls, h => ⟨.cls, h.symm.trans BitVec.and_allOnes, rfl⟩
  | .ret, h => ⟨.ret, h.symm.trans BitVec.and_allOnes, rfl⟩
  | .jpAddr _, h => ⟨.jpAddr _, encodeNnn_eq_of_mask h, rfl⟩
  | .callAddr _, h => ⟨.callAddr _, encodeNnn_eq_of_mask h, rfl⟩
  | .seVxByte _ _, h => ⟨.seVxByte _ _, encodeXkk_eq_of_mask h, rfl⟩
  | .sneVxByte _ _, h => ⟨.sneVxByte _ _, encodeXkk_eq_of_mask h, rfl⟩
  | .seVxVy _ _, h => ⟨.seVxVy _ _, encodeXyn_eq_of_mask_n h, rfl⟩
  | .ldVxByte _ _, h => ⟨.ldVxByte _ _, encodeXkk_eq_of_mask h, rfl⟩
  | .addVxByte _ _, h => ⟨.addVxByte _ _, encodeXkk_eq_of_mask h, rfl⟩
  | .ldVxVy _ _, h => ⟨.ldVxVy _ _, encodeXyn_eq_of_mask_n h, rfl⟩
  | .orVxVy _ _, h => ⟨.orVxVy _ _, encodeXyn_eq_of_mask_n h, rfl⟩
  | .andVxVy _ _, h => ⟨.andVxVy _ _, encodeXyn_eq_of_mask_n h, rfl⟩
  | .xorVxVy _ _, h => ⟨.xorVxVy _ _, encodeXyn_eq_of_mask_n h, rfl⟩
  | .addVxVy _ _, h => ⟨.addVxVy _ _, encodeXyn_eq_of_mask_n h, rfl⟩
  | .subVxVy _ _, h => ⟨.subVxVy _ _, encodeXyn_eq_of_mask_n h, rfl⟩
  | .shr _ _, h => ⟨.shr _ _, encodeXyn_eq_of_mask_n h, rfl⟩
  | .subn _ _, h => ⟨.subn _ _, encodeXyn_eq_of_mask_n h, rfl⟩
  | .shl _ _, h => ⟨.shl _ _, encodeXyn_eq_of_mask_n h, rfl⟩
  | .sneVxVy _ _, h => ⟨.sneVxVy _ _, encodeXyn_eq_of_mask_n h, rfl⟩
  | .ldIAddr _, h => ⟨.ldIAddr _, encodeNnn_eq_of_mask h, rfl⟩
  | .jpV0Addr _, h => ⟨.jpV0Addr _, encodeNnn_eq_of_mask h, rfl⟩
  | .rnd _ _, h => ⟨.rnd _ _, encodeXkk_eq_of_mask h, rfl⟩
  | .drw _ _ _, h => ⟨.drw _ _ _, encodeXyn_eq_of_mask h, rfl⟩
  | .skpVx _, h => ⟨.skpVx _, encodeXkk_eq_of_mask_kk h, rfl⟩
  | .sknpVx _, h => ⟨.sknpVx _, encodeXkk_eq_of_mask_kk h, rfl⟩
  | .ldVxDt _, h => ⟨.ldVxDt _, encodeXkk_eq_of_mask_kk h, rfl⟩
  | .ldVxK _, h => ⟨.ldVxK _, encodeXkk_eq_of_mask_kk h, rfl⟩
  | .ldDtVx _, h => ⟨.ldDtVx _, encodeXkk_eq_of_mask_kk h, rfl⟩
  | .ldStVx _, h => ⟨.ldStVx _, encodeXkk_eq_of_mask_kk h, rfl⟩
  | .addIVx _, h => ⟨.addIVx _, encodeXkk_eq_of_mask_kk h, rfl⟩
  | .ldFVx _, h => ⟨.ldFVx _, encodeXkk_eq_of_mask_kk h, rfl⟩
  | .ldBVx _, h => ⟨.ldBVx _, encodeXkk_eq_of_mask_kk h, rfl⟩
  | .ldIVx _, h => ⟨.ldIVx _, encodeXkk_eq_of_mask_kk h, rfl⟩
  | .ldVxI _, h => ⟨.ldVxI _, encodeXkk_eq_of_mask_kk h, rfl⟩

end Fields

/-! ### Decoder and table (R84, R91) -/

/-- Every instruction's row is one of the table's, and its word matches it (R84). -/
theorem tableRow (i : Instr) : Laws.TableRow.Statement i := by
  open Laws.TableRow in
  cases i
  exacts [cls, ret, jpAddr _, callAddr _, seVxByte _ _, sneVxByte _ _, seVxVy _ _, ldVxByte _ _, addVxByte _ _, ldVxVy _ _,
    orVxVy _ _, andVxVy _ _, xorVxVy _ _, addVxVy _ _, subVxVy _ _, shr _ _, subn _ _, shl _ _, sneVxVy _ _, ldIAddr _,
    jpV0Addr _, rnd _ _, drw _ _ _, skpVx _, sknpVx _, ldVxDt _, ldVxK _, ldDtVx _, ldStVx _, addIVx _, ldFVx _, ldBVx _,
    ldIVx _, ldVxI _]

/-- Every word that matches a row of the table decodes to an instruction of that row (R84). -/
theorem exists_decode_of_matchesWord {w : Word} {r : OpcodeRow} (hr : r ∈ opcodeTable) (h : r.matchesWord w = true) :
    ∃ i, decode w = .ok i ∧ i.row = r := by
  obtain ⟨i, -, rfl⟩ := List.mem_map.1 hr
  obtain ⟨j, rfl, hrow⟩ := exists_encode_of_mask i (of_decide_eq_true h)
  exact ⟨j, decode_encode j, hrow⟩

/-- Settles O4, by what the decoder can answer. -/
theorem encodeOfDecode : Obligations.EncodeOfDecode := by
  unfold Obligations.EncodeOfDecode
  exact fun _ _ => encode_of_decode

/-- Settles O5: a word is the word of the instruction it decodes to, which lies in that instruction's row; and a word that a row
matches is not rejected. -/
theorem decodeFollowsTable : Obligations.DecodeFollowsTable := by
  unfold Obligations.DecodeFollowsTable
  refine ⟨fun w i h => ?_, fun w e h => ⟨?_, fun r hr => ?_⟩⟩
  · obtain ⟨-, hrow, hmatch⟩ := tableRow i
    exact ⟨hrow, encode_of_decode h ▸ hmatch⟩
  · exact decodeError_of_decode h
  · by_contra hm
    obtain ⟨i, hi, -⟩ := exists_decode_of_matchesWord hr (Bool.eq_true_of_not_eq_false hm)
    cases h.symm.trans hi

/-- Settles O6: a word has one decoding, and its row is every row that matches the word. -/
theorem tableRowsDisjoint : Obligations.TableRowsDisjoint := by
  unfold Obligations.TableRowsDisjoint
  refine ⟨rfl, fun w r hr q hq hwr hwq => ?_⟩
  obtain ⟨i, hi, rfl⟩ := exists_decode_of_matchesWord hr hwr
  obtain ⟨j, hj, rfl⟩ := exists_decode_of_matchesWord hq hwq
  cases hi.symm.trans hj
  rfl

/-! ### Words written out -/

/-- Settles O1, by evaluation. -/
theorem sourceDecodeExample : Obligations.SourceDecodeExample := by
  unfold Obligations.SourceDecodeExample
  exact ⟨rfl, rfl, rfl, rfl⟩

/-- Settles O2, by evaluation. -/
theorem sampleWordsDecode : Obligations.SampleWordsDecode := by
  unfold Obligations.SampleWordsDecode
  decide

end Sys2Proof
end

section
/-!
PROOFS. No instruction, fault or host call stops the model: fault entry is a next state too (30_encoding.md R92, 40_cycle.md R108,
R114, 60_exceptions.md R237; O55).
-/

namespace Sys2Proof.Machine

theorem State.checked_answers (s : State) (a : Word) (n : Nat) (t : State) : ∃ u, s.checked a n t = .next u := by
  obtain ⟨_, he⟩ | ⟨_, he⟩ := s.checked_cases a n t
  · exact ⟨_, he⟩
  · exact ⟨_, he⟩

/-- By the instruction: RET, CALL_ADDR and DRW have two branches, the stores and the load make a checked access (R61). -/
theorem exec_answers (i : Instr) (s : State) : ∃ t, exec i s = .next t := by
  cases i <;> simp only [exec]
  case ret =>
    unfold execRet
    split <;> exact ⟨_, rfl⟩
  case callAddr =>
    unfold execCallAddr
    split <;> exact ⟨_, rfl⟩
  case drw =>
    unfold execDrw
    split
    · exact ⟨_, rfl⟩
    · exact s.checked_answers ..
  case ldBVx | ldIVx | ldVxI => exact s.checked_answers ..
  all_goals exact ⟨_, rfl⟩

theorem runInstr_answers (s : State) : ∃ t, runInstr s = .next t := by
  obtain ⟨_, he⟩ | ⟨_, _, _, he⟩ | ⟨_, i, _, he⟩ := runInstr_cases s
  · exact ⟨_, he⟩
  · exact ⟨_, he⟩
  · rw [he]
    exact exec_answers i s

theorem slot_answers (n : Nat) (s : State) : ∃ t, slot n s = .next t := by
  obtain ⟨_, he⟩ | ⟨_, he⟩ := slot_cases n s
  · exact ⟨_, he⟩
  · rw [he]
    exact runInstr_answers _

/-- Settles O55, by the scheduler's phase. -/
theorem everyStepAnswersNext : Obligations.EveryStepAnswersNext := by
  unfold Obligations.EveryStepAnswersNext
  intro s
  cases hph : s.phase with
  | between => exact ⟨_, step_between s hph⟩
  | slots n =>
    cases n with
    | zero => exact ⟨_, step_slots_zero s hph⟩
    | succ n =>
      rw [step_slots_succ s n hph]
      exact slot_answers n s

end Sys2Proof.Machine
end

section
/-!
PROOFS. The port calls of one DRW, in their order (45_io.md R202; O39).
-/

namespace Sys2Proof.Machine

variable {s : State} {x y : Reg} {n : Nibble}

/-- The bytes at `a`, the first one split off. -/
theorem State.bytes_succ (s : State) (a n : Nat) : s.bytes a (n + 1) = s.byte a :: s.bytes (a + 1) n := rfl

/-- The calls of the `n` sprite rows from `row` on, row by row, where row 0 stands at `a` (R202). -/
theorem spriteCalls_bytes (s : State) (px py a row n : Nat) :
    spriteCalls px py row (s.bytes (a + row) n) =
      (List.range' row n).flatMap fun r => rowCalls px py r (s.byte (a + r)) := by
  induction n generalizing row with
  | zero => rfl
  | succ n ih => rw [State.bytes_succ, spriteCalls, Nat.add_assoc, ih, List.range'_succ, List.flatMap_cons]

/-- The calls of a DRW as events: its rows in order, and in each row its columns (R202). -/
theorem State.drwCalls_events (s : State) (x y : Reg) (n : Nibble) :
    (s.drwCalls x y n).map PixelCall.event =
      (List.range n.toNat).flatMap fun row => (List.range 8).map fun col =>
        PortEvent.setPixel (((s.reg x).toNat + col) % 64) (((s.reg y).toNat + row) % 32)
          ((s.byte (s.i.toNat + row)).getLsbD (7 - col)) := by
  have hcalls := spriteCalls_bytes s (s.reg x).toNat (s.reg y).toNat s.i.toNat 0 n.toNat
  rw [Nat.add_zero, ← List.range_eq_range'] at hcalls
  rw [State.drwCalls, hcalls, List.map_flatMap]
  simp only [rowCalls, List.map_map]
  rfl

/-- DRW with no row, or with its rows inside memory (R201). -/
theorem exec_drw_of_inRange (h : n = 0 ∨ s.i.toNat + n.toNat - 1 ≤ 0xFFF) : exec (.drw x y n) s = .next (s.drawn x y n) := by
  rw [exec, execDrw]
  split
  next => rfl
  next hn =>
    have hr : outOfRange s.i n.toNat = false := (outOfRange_eq_false s.i _).2 (h.resolve_left hn)
    simp [State.checked, hr]

/-- The history after the calls of a DRW, newest first (log entry 13). -/
theorem State.drawn_history (s : State) (x y : Reg) (n : Nibble) :
    (s.drawn x y n).history = ((s.drwCalls x y n).map PixelCall.event).reverse ++ s.history := rfl

/-- Settles O39: DRW emits its calls, and these are the rows' calls in order. -/
theorem spritePortCalls : Obligations.SpritePortCalls := by
  unfold Obligations.SpritePortCalls
  intro x y n s h
  refine ⟨s.drawn x y n, exec_drw_of_inRange h, ?_⟩
  rw [s.drawn_history, s.drwCalls_events]

end Sys2Proof.Machine
end

section
/-!
PROOFS. The closing stages of a tick (40_cycle.md R107, 60_exceptions.md R243, R245; O35), and the tick of a block that is not
Ready (40_cycle.md R110; O48).
-/

namespace Sys2Proof.Machine

variable {s : State}

/-- Settles O35: the step is `closeTick`, whose tone stage reads ST after the timer stage. -/
theorem closingStages : Obligations.ClosingStages := by
  unfold Obligations.ClosingStages
  exact fun s hph => ⟨s.closeTick, step_slots_zero s hph, countDown_toNat s.dt, countDown_toNat s.st, rfl⟩

/-! ### Ticks in Idle and in Faulted (R110) -/

theorem State.tick_of_not_ready (hr : s.runState ≠ .ready) : s.tick = .next s.beginTick := by
  cases h : s.runState with
  | idle | faulted => simp only [State.tick, h]
  | ready => exact absurd h hr

theorem State.beginTick_of_idle (hr : s.runState = .idle) : s.beginTick = { s with lastResult := some .ok } := by
  rw [State.beginTick, hr]

theorem State.beginTick_of_faulted (hr : s.runState = .faulted) : s.beginTick = { s with lastResult := some s.storedResult } := by
  rw [State.beginTick, hr]

theorem State.tick_of_idle (hr : s.runState = .idle) : s.tick = .next { s with lastResult := some .ok } := by
  rw [State.tick_of_not_ready (by simp [hr]), State.beginTick_of_idle hr]

theorem State.tick_of_faulted {f : Fault} (hr : s.runState = .faulted) (hf : s.fault = some f) :
    s.tick = .next { s with lastResult := some (.fault f) } := by
  have hres : s.storedResult = .fault f := by rw [State.storedResult, hf]
  rw [State.tick_of_not_ready (by simp [hr]), State.beginTick_of_faulted hr, hres]

@[simp] theorem State.keyPress_runState (s : State) (k : Key) : (s.keyPress k).runState = s.runState := by
  unfold State.keyPress
  split <;> rfl

/-- Settles O48: tick, set_speed and the key-press event keep Faulted. -/
theorem tickWhenNotReady : Obligations.TickWhenNotReady := by
  unfold Obligations.TickWhenNotReady
  refine fun s => ⟨State.tick_of_idle, fun _ => State.tick_of_faulted, fun c hr hne => ?_⟩
  cases c with
  | load p => exact .inr ⟨p, rfl⟩
  | reset => exact .inl rfl
  | tick => exact absurd (by rw [State.perform, State.beginTick_of_faulted hr, hr]) hne
  | setSpeed n => exact absurd hr hne
  | keyPress k => exact absurd ((s.keyPress_runState k).trans hr) hne

end Sys2Proof.Machine
end

section
/-!
PROOFS. What a slot that is not paused can end in: fault entry, or a state with the control fields kept. So a fault is precise
(60_exceptions.md R108, R238; O59), a word of no row is DecodeError and any other word is executed (40_cycle.md R102 to R105; O8,
O10), and running a tick step by step is the atomic tick (R100, R107; O56).
-/

namespace Sys2Proof.Machine

variable {s t : State} {n : Nat}

/-! ### Fetch and decode (R102 to R105) -/

/-- Settles O8, by the slot that is not paused: `wordAt` is the word of the two bytes. -/
theorem stepRunsDecodedInstruction : Obligations.StepRunsDecodedInstruction := by
  unfold Obligations.StepRunsDecodedInstruction
  exact fun s n i hph hp hpc hd => step_of_decode_ok hph hp (Nat.le_of_succ_le_succ hpc) hd

/-- The decoder rejects every word that matches no row: an instruction's own row would match its word (R84, R91). -/
theorem decode_of_not_legal {w : Word} (h : legalWord w = false) : decode w = .error (.decodeError w) := by
  cases hd : decode w with
  | error e => rw [decodeError_of_decode hd]
  | ok i =>
    obtain ⟨-, hrow, hmatch⟩ := tableRow i
    rw [encode_of_decode hd] at hmatch
    have hlegal : legalWord w = true := List.any_eq_true.2 ⟨i.row, hrow, hmatch⟩
    cases h.symm.trans hlegal

/-- Inside memory, a word at PC that is rejected is DecodeError (R104). -/
theorem runInstr_of_decode_error {e : DecodeReject} (hpc : s.pc.toNat ≤ 0xFFE) (hd : decode (s.wordAt s.pc.toNat) = .error e) :
    runInstr s = .next (s.takeFault (.decodeError (s.wordAt s.pc.toNat) s.pc)) := by
  obtain ⟨_, _⟩ | ⟨_, _, _, he⟩ | ⟨_, _, hok, _⟩ := runInstr_cases s
  · omega
  · exact he
  · cases hd.symm.trans hok

/-- Settles O10: the slot's decoder rejects the word, and fault entry overwrites the phase that the slot left. -/
theorem illegalWordFaults : Obligations.IllegalWordFaults := by
  unfold Obligations.IllegalWordFaults EntersFault
  intro s n hph hp hpc hw
  have hrun := runInstr_of_decode_error (s := s.withPhase (.slots n)) (Nat.le_of_succ_le_succ hpc) (decode_of_not_legal hw)
  rw [step_of_not_paused hph hp, hrun]
  rfl

/-! ### A fault in a slot (R108, R238) -/

/-- Whatever the checks and the instruction do, a slot takes a fault or keeps the control fields. -/
theorem runInstr_takeFault_or_keepsControl (ht : runInstr s = .next t) : (∃ f, t = s.takeFault f) ∨ KeepsControl s t := by
  obtain ⟨_, he⟩ | ⟨_, _, _, he⟩ | ⟨_, i, _, he⟩ := runInstr_cases s
  · cases he.symm.trans ht
    exact .inl ⟨_, rfl⟩
  · cases he.symm.trans ht
    exact .inl ⟨_, rfl⟩
  · exact exec_cases i s t (he.symm.trans ht)

theorem KeepsControl.runState_eq (h : KeepsControl s t) : t.runState = s.runState := by rw [h]

theorem KeepsControl.phase_eq (h : KeepsControl s t) : t.phase = s.phase := by rw [h]

/-- Settles O59: a paused slot and one that keeps the control fields stay Ready, so the slot took a fault, and fault entry
overwrites the phase that the slot left. -/
theorem faultsArePrecise : Obligations.FaultsArePrecise := by
  unfold Obligations.FaultsArePrecise
  intro s t n hph hr hstep hf
  have hslot : slot n s = .next t := (step_slots_succ s n hph).symm.trans hstep
  have hready : (s.withPhase (.slots n)).runState ≠ .faulted := by simp [hr]
  obtain ⟨_, he⟩ | ⟨_, he⟩ := slot_cases n s
  · cases he.symm.trans hslot
    exact absurd hf hready
  · obtain ⟨f, rfl⟩ | hk := runInstr_takeFault_or_keepsControl (he.symm.trans hslot)
    · exact ⟨f, hstep⟩
    · exact absurd (hk.runState_eq.symm.trans hf) hready

/-! ### A tick is a run of steps (R100, R107, R108) -/

/-- The atomic procedure after a slot that did not fault (R100). -/
theorem tickSlots_of_not_faulted (hp : s.pause = false) (ht : runInstr (s.withPhase (.slots n)) = .next t)
    (hf : t.runState ≠ .faulted) : tickSlots (n + 1) s = tickSlots n t := by
  simp [tickSlots, hp, ht, hf]

/-- The atomic procedure ends with a slot that faulted (R108). -/
theorem tickSlots_of_faulted (hp : s.pause = false) (ht : runInstr (s.withPhase (.slots n)) = .next t)
    (hf : t.runState = .faulted) : tickSlots (n + 1) s = .next t := by
  simp [tickSlots, hp, ht, hf]

/-- While PAUSE is true the atomic procedure only counts the slot (R101). -/
theorem tickSlots_of_paused (hp : s.pause = true) : tickSlots (n + 1) s = tickSlots n (s.withPhase (.slots n)) := by
  simp [tickSlots, hp]

/-- Some number of steps from 1 to `n` gives the outcome. -/
def RunsWithin (n : Nat) (s : State) (o : Host.Outcome State Fault Refusal) : Prop :=
  ∃ k, 1 ≤ k ∧ k ≤ n ∧ Host.Core.run core k s = o

/-- One step alone is a run. -/
theorem RunsWithin.of_step_end (hst : step s = .next t) : RunsWithin (n + 1) s (.next t) :=
  ⟨1, Nat.le_refl 1, Nat.le_add_left 1 n, run_succ core 0 s t hst⟩

theorem RunsWithin.of_step {o : Host.Outcome State Fault Refusal} (hst : step s = .next t) (h : RunsWithin n t o) :
    RunsWithin (n + 1) s o := by
  obtain ⟨k, -, hle, hrun⟩ := h
  exact ⟨k + 1, Nat.le_add_left 1 k, Nat.succ_le_succ hle, (run_succ core k s t hst).trans hrun⟩

/-- From inside a tick with `n` slots left: at most one step for each slot and one for the closing stages, by induction on the
slots. A slot that does not fault leaves the scheduler where its slots left say. -/
theorem runsWithin_tickSlots (n : Nat) (s : State) (hph : s.phase = .slots n) : RunsWithin (n + 1) s (tickSlots n s) := by
  induction n generalizing s with
  | zero => exact .of_step_end (step_slots_zero s hph)
  | succ n ih =>
    cases hp : s.pause with
    | true =>
      rw [tickSlots_of_paused hp]
      exact .of_step (step_of_paused hph hp) (ih _ rfl)
    | false =>
      obtain ⟨t, ht⟩ := runInstr_answers (s.withPhase (.slots n))
      have hst : step s = .next t := (step_of_not_paused hph hp).trans ht
      by_cases hf : t.runState = .faulted
      · rw [tickSlots_of_faulted hp ht hf]
        exact .of_step_end hst
      · rw [tickSlots_of_not_faulted hp ht hf]
        obtain ⟨f, rfl⟩ | hk := runInstr_takeFault_or_keepsControl ht
        · exact absurd rfl hf
        · exact .of_step hst (ih t hk.phase_eq)

/-- Where a step begins the tick of `t`, the steps from there on give the atomic tick of `t` (R100, R110). -/
theorem runsWithin_tick (hst : step s = .next t.beginTick) : RunsWithin (t.speed + 2) s t.tick := by
  by_cases hr : t.runState = .ready
  · have hph : t.beginTick.phase = .slots t.speed := by rw [State.beginTick_of_ready hr, State.withPhase_phase]
    have htick : t.tick = tickSlots t.speed t.beginTick := by simp only [State.tick, hr]
    rw [htick]
    exact .of_step hst (runsWithin_tickSlots t.speed t.beginTick hph)
  · rw [State.tick_of_not_ready hr]
    exact .of_step_end hst

/-- Settles O56: the step between ticks begins the tick, of the script or of the driver, and the rest is that tick's run. -/
theorem tickIsRunOfSteps : Obligations.TickIsRunOfSteps := by
  unfold Obligations.TickIsRunOfSteps
  intro s hph
  refine ⟨fun rest hs => ?_, fun hs => ?_⟩
  · exact runsWithin_tick (t := { s with script := rest }) (step_of_script_cons hph hs)
  · exact runsWithin_tick (step_of_script_nil hph hs)

end Sys2Proof.Machine
end

section
/-!
PROOFS. Control flow (41_control_flow.md R120 to R127; O13 to O19). What each instruction answers is said once, in each case of its
stack or its condition; that its word decodes to it is `decode_encode`.
-/

namespace Sys2Proof.Machine

variable {s : State} {nnn : Addr12} {x y : Reg} {rest : List Word} {w : Word}

/-! ### Subroutines (R120, R122) -/

/-- RET with a newest entry `w` on the stack (R120). -/
theorem exec_ret_of_stack (hs : s.stack = rest ++ [w]) : exec .ret s = .next ((s.setStack rest).jump w) := by
  simp [exec, execRet, hs]

/-- RET with an empty stack (R120). -/
theorem exec_ret_of_stack_nil (hs : s.stack = []) : exec .ret s = .next (s.takeFault (.stackUnderflow s.pc 0)) := by
  simp [exec, execRet, hs, raise]

/-- Settles O13, by the newest entry of the stack. -/
theorem returnPops : Obligations.ReturnPops := by
  unfold Obligations.ReturnPops
  exact ⟨decode_encode .ret, fun _ _ _ hs => exec_ret_of_stack hs, fun _ hs => exec_ret_of_stack_nil hs⟩

/-- CALL_ADDR with a depth other than 16 (R122). -/
theorem exec_callAddr_of_not_full (hd : s.stack.length ≠ 16) :
    exec (.callAddr nnn) s = .next ((s.setStack (s.stack ++ [s.pc + 2])).jump (zext16 nnn)) :=
  if_neg hd

/-- CALL_ADDR with 16 frames held (R122). -/
theorem exec_callAddr_of_full (hd : s.stack.length = 16) :
    exec (.callAddr nnn) s = .next (s.takeFault (.stackOverflow s.pc 16)) :=
  if_pos hd

/-- Settles O15, by the depth of the stack. -/
theorem callPushes : Obligations.CallPushes := by
  unfold Obligations.CallPushes
  intro nnn s
  refine ⟨decode_encode (.callAddr nnn), fun hd => ?_, exec_callAddr_of_full⟩
  exact ⟨_, exec_callAddr_of_not_full hd, zext16_toNat nnn, rfl⟩

/-- Settles O16: the entry that RET pops is the one that CALL_ADDR pushed. -/
theorem callThenReturn : Obligations.CallThenReturn := by
  unfold Obligations.CallThenReturn
  exact fun nnn s hd => ⟨_, exec_callAddr_of_not_full (Nat.ne_of_lt hd), exec_ret_of_stack rfl⟩

/-! ### Jumps (R121, R127) -/

/-- Settles O14: the jump goes to nnn zero-extended. -/
theorem jumpSetsPc : Obligations.JumpSetsPc := by
  unfold Obligations.JumpSetsPc
  exact fun nnn s => ⟨decode_encode (.jpAddr nnn), s.jump (zext16 nnn), rfl, zext16_toNat nnn, rfl⟩

/-- nnn plus a byte is at most 0x10FE (R127). -/
theorem addr12_add_byte_le (nnn : Addr12) (b : Byte) : nnn.toNat + b.toNat ≤ 0x10FE := by
  have hn := nnn.isLt
  have hb := b.isLt
  omega

/-- Settles O19: the sum is at most 0x10FE, so PC holds it. -/
theorem jumpPlusV0 : Obligations.JumpPlusV0 := by
  unfold Obligations.JumpPlusV0
  intro nnn s
  have hle := addr12_add_byte_le nnn (s.reg 0)
  have hpc : (BitVec.ofNat 16 (nnn.toNat + (s.reg 0).toNat)).toNat = nnn.toNat + (s.reg 0).toNat := by
    rw [BitVec.toNat_ofNat]
    omega
  exact ⟨decode_encode (.jpV0Addr nnn), s.jump _, rfl, hpc, hpc.trans_le hle, rfl⟩

/-! ### Skips (R106, R123 to R126) -/

theorem State.skip_decide (s : State) (p : Prop) [Decidable p] :
    s.skip (decide p) = { s with pc := if p then s.pc + 4 else s.pc + 2 } := by
  simp [State.skip]

theorem State.skip_decide_not (s : State) (p : Prop) [Decidable p] :
    s.skip (decide ¬p) = { s with pc := if p then s.pc + 2 else s.pc + 4 } := by
  rw [State.skip_decide, ite_not]

/-- Settles O17: SE_Vx_BYTE skips on the equality, SNE_Vx_BYTE on its negation. -/
theorem skipOnByte : Obligations.SkipOnByte := by
  unfold Obligations.SkipOnByte
  intro x kk s
  refine ⟨decode_encode (.seVxByte x kk), decode_encode (.sneVxByte x kk), ?_, ?_⟩
  · exact congrArg _ (s.skip_decide (s.reg x = kk))
  · exact congrArg _ (s.skip_decide_not (s.reg x = kk))

/-- What SE_Vx_Vy answers (R125). -/
theorem exec_seVxVy : exec (.seVxVy x y) s = .next { s with pc := if s.reg x = s.reg y then s.pc + 4 else s.pc + 2 } :=
  congrArg _ (s.skip_decide (s.reg x = s.reg y))

/-- What SNE_Vx_Vy answers (R126). -/
theorem exec_sneVxVy : exec (.sneVxVy x y) s = .next { s with pc := if s.reg x = s.reg y then s.pc + 2 else s.pc + 4 } :=
  congrArg _ (s.skip_decide_not (s.reg x = s.reg y))

/-- Settles O18; with x = y the condition is an equality of a register with itself. -/
theorem skipOnRegisters : Obligations.SkipOnRegisters := by
  unfold Obligations.SkipOnRegisters
  intro x y s
  refine ⟨decode_encode (.seVxVy x y), decode_encode (.sneVxVy x y), exec_seVxVy, exec_sneVxVy, ?_, ?_⟩
  · rw [exec_seVxVy, if_pos rfl]
  · rw [exec_sneVxVy, if_pos rfl]

end Sys2Proof.Machine
end

section
/-!
PROOFS. The ALU instructions other than RND (42_alu.md R140 to R152; O20 to O27). Every one ends in one register write or in one
writeback after the +2, so what a register write and a writeback do is said once, and each instruction adds the value of its result
and of its flag. That its word decodes to it is `decode_encode`.
-/

namespace Sys2Proof.Machine

/-! ### The two ways to end an ALU instruction (R23, R141) -/

/-- A register write after the +2 writes that register and nothing else. -/
theorem writesReg_advance_setReg (s : State) (x : Reg) (b : Byte) : WritesReg s (s.advance.setReg x b) x b :=
  ⟨s.advance.reg_setReg_self x b, fun r hr => s.advance.reg_setReg_other x r b hr, rfl⟩

/-- A writeback after the +2 writes V[x] and VF in the order of P_VF_DEST, and nothing else. -/
theorem writesRegAndFlag_advance_writeback (s : State) (x : Reg) (r f : Byte) :
    WritesRegAndFlag s (s.advance.writeback x r f) x r f := by
  refine ⟨s.advance.writeback_reg_ne x r f, ?_, fun q => s.advance.writeback_reg_other x q r f, ?_⟩
  · rintro rfl
    exact s.advance.writeback_reg_15 r f
  · exact s.advance.writeback_frame x r f

/-! ### Results and flags as numbers (R140, R148 to R152) -/

@[simp] theorem sumByte_toNat (a b : Byte) : (sumByte a b).toNat = (a.toNat + b.toNat) % 256 :=
  BitVec.toNat_ofNat _ 8

/-- The carry flag as VF's byte (R148). -/
theorem flagByte_sumFlag (a b : Byte) : flagByte (sumFlag a b) = if a.toNat + b.toNat > 255 then 1 else 0 := by
  simp [flagByte, sumFlag]

/-- The exact difference modulo 256, with a borrow of 256 that keeps it a natural number (R149). -/
@[simp] theorem diffByte_toNat (a b : Byte) : (diffByte a b).toNat = (a.toNat + 256 - b.toNat) % 256 := by
  have hb := b.isLt
  rw [diffByte, BitVec.toNat_ofInt]
  omega

/-- The strictly-positive flag as VF's byte (R149). -/
theorem flagByte_diffFlag (a b : Byte) : flagByte (diffFlag a b) = if a.toNat > b.toNat then 1 else 0 := by
  simp [flagByte, diffFlag]

@[simp] theorem shrByte_toNat (a : Byte) : (shrByte a).toNat = a.toNat / 2 := by
  simp [shrByte, Nat.shiftRight_eq_div_pow]

/-- VF's byte is the bit's value (R29). -/
theorem flagByte_toNat (f : Bool) : (flagByte f).toNat = f.toNat := by
  cases f <;> rfl

/-- The value of bit `k` of a byte taken as the flag. -/
theorem flagByte_getLsbD_toNat (a : Byte) (k : Nat) : (flagByte (a.getLsbD k)).toNat = a.toNat / 2 ^ k % 2 :=
  (flagByte_toNat _).trans (Nat.toNat_testBit a.toNat k)

/-- Bit 0 as VF's byte (R150). -/
theorem flagByte_shrFlag_toNat (a : Byte) : (flagByte (shrFlag a)).toNat = a.toNat % 2 := by
  rw [shrFlag, flagByte_getLsbD_toNat, Nat.pow_zero, Nat.div_one]

@[simp] theorem shlByte_toNat (a : Byte) : (shlByte a).toNat = a.toNat * 2 % 256 :=
  BitVec.toNat_ofNat _ 8

/-- Bit 7 as VF's byte (R152). -/
theorem flagByte_shlFlag_toNat (a : Byte) : (flagByte (shlFlag a)).toNat = a.toNat / 128 := by
  have ha := a.isLt
  rw [shlFlag, flagByte_getLsbD_toNat]
  omega

/-! ### Instructions without a flag (R142 to R147) -/

/-- Settles O20: each load is one register write. -/
theorem registerLoads : Obligations.RegisterLoads := by
  unfold Obligations.RegisterLoads
  intro x y kk s
  refine ⟨decode_encode (.ldVxByte x kk), decode_encode (.ldVxVy x y), ?_, ?_⟩
  · exact ⟨_, rfl, writesReg_advance_setReg s x kk⟩
  · exact ⟨_, rfl, writesReg_advance_setReg s x (s.reg y)⟩

/-- Settles O21: the byte written is the sum modulo 256. -/
theorem addByteWithoutFlag : Obligations.AddByteWithoutFlag := by
  unfold Obligations.AddByteWithoutFlag
  intro x kk s
  exact ⟨decode_encode (.addVxByte x kk), _, _, rfl, writesReg_advance_setReg s x _, sumByte_toNat (s.reg x) kk⟩

/-- Settles O22: each logic operation is one register write of a byte known bit by bit. -/
theorem logicOperations : Obligations.LogicOperations := by
  unfold Obligations.LogicOperations
  intro x y s
  refine ⟨decode_encode (.orVxVy x y), decode_encode (.andVxVy x y), decode_encode (.xorVxVy x y), ?_, ?_, ?_⟩
  · exact ⟨_, _, rfl, writesReg_advance_setReg s x _, fun _ _ => BitVec.getLsbD_or⟩
  · exact ⟨_, _, rfl, writesReg_advance_setReg s x _, fun _ _ => BitVec.getLsbD_and⟩
  · exact ⟨_, _, rfl, writesReg_advance_setReg s x _, fun _ _ => BitVec.getLsbD_xor⟩

/-! ### Instructions with a flag (R148 to R152) -/

/-- Settles O23: the writeback of the sum and the carry. -/
theorem addWithCarry : Obligations.AddWithCarry := by
  unfold Obligations.AddWithCarry
  intro x y s
  refine ⟨decode_encode (.addVxVy x y), _, _, rfl, sumByte_toNat (s.reg x) (s.reg y), ?_⟩
  rw [← flagByte_sumFlag]
  exact writesRegAndFlag_advance_writeback s x _ _

/-- Settles O24: the writeback of the difference and the strictly-positive flag. -/
theorem subtractWithFlag : Obligations.SubtractWithFlag := by
  unfold Obligations.SubtractWithFlag
  intro x y s
  refine ⟨decode_encode (.subVxVy x y), _, _, rfl, diffByte_toNat (s.reg x) (s.reg y), ?_⟩
  rw [← flagByte_diffFlag]
  exact writesRegAndFlag_advance_writeback s x _ _

/-- Settles O25: as SUB_Vx_Vy, with V[x] and V[y] exchanged. -/
theorem reverseSubtractWithFlag : Obligations.ReverseSubtractWithFlag := by
  unfold Obligations.ReverseSubtractWithFlag
  intro x y s
  refine ⟨decode_encode (.subn x y), _, _, rfl, diffByte_toNat (s.reg y) (s.reg x), ?_⟩
  rw [← flagByte_diffFlag]
  exact writesRegAndFlag_advance_writeback s x _ _

/-- Settles O26: the writeback of half of V[x] and of bit 0; the meaning does not name y. -/
theorem shiftRightWithFlag : Obligations.ShiftRightWithFlag := by
  unfold Obligations.ShiftRightWithFlag
  intro x y s
  refine ⟨decode_encode (.shr x y), ⟨_, _, _, rfl, shrByte_toNat (s.reg x), flagByte_shrFlag_toNat (s.reg x), ?_⟩, fun _ => rfl⟩
  exact writesRegAndFlag_advance_writeback s x _ _

/-- Settles O27: the writeback of V[x] doubled modulo 256 and of bit 7; the meaning does not name y. -/
theorem shiftLeftWithFlag : Obligations.ShiftLeftWithFlag := by
  unfold Obligations.ShiftLeftWithFlag
  intro x y s
  refine ⟨decode_encode (.shl x y), ⟨_, _, _, rfl, shlByte_toNat (s.reg x), flagByte_shlFlag_toNat (s.reg x), ?_⟩, fun _ => rfl⟩
  exact writesRegAndFlag_advance_writeback s x _ _

end Sys2Proof.Machine
end

section
/-!
PROOFS. The index register and the memory transfers (43_index_memory.md R170 to R175; O29 to O33). A transfer is one checked access:
what it answers is said once for its range inside memory and once beyond 0xFFF, and each instruction adds the bytes it moves. That
its word decodes to it is `decode_encode`.
-/

namespace Sys2Proof.Machine

variable {s : State} {a : Word} {n : Nat} {t : State} {x r : Reg}

/-! ### The range check (R61, R238) -/

theorem State.checked_of_inRange (h : a.toNat + n - 1 ≤ 0xFFF) : s.checked a n t = .next t := by
  obtain ⟨_, he⟩ | ⟨hlt, _⟩ := s.checked_cases a n t
  · exact he
  · omega

theorem State.entersFault_checked_of_outOfRange (h : 0xFFF < a.toNat + n - 1) :
    EntersFault (s.checked a n t) s (.memoryOutOfRange s.pc (BitVec.ofNat 16 (max a.toNat 0x1000))) := by
  obtain ⟨hle, _⟩ | ⟨_, he⟩ := s.checked_cases a n t
  · omega
  · rw [he, ← faultAddr_eq_ofNat_max]
    rfl

/-! ### LD_I_Vx and LD_Vx_I (R174, R175) -/

/-- LD_Vx_I with its range inside memory (R175). -/
theorem exec_ldVxI_of_inRange (h : s.i.toNat + x.val ≤ 0xFFF) :
    exec (.ldVxI x) s = .next (s.advance.setRegs (s.loadedRegs x)) :=
  State.checked_of_inRange h

/-- LD_Vx_I loads the registers up to x (R175); those above are kept by `State.reg_setRegs_loadedRegs_above`. -/
theorem State.reg_setRegs_loadedRegs_le (u : State) (h : r.val ≤ x.val) :
    (u.setRegs (s.loadedRegs x)).reg r = s.byte (s.i.toNat + r.val) :=
  (s.loadedRegs_getElem x r).trans (if_pos h)

/-- Settles O33: memory and I are those that LD_I_Vx left, so each register up to x is read back from the byte it was stored in. -/
theorem storeThenLoadRegisters : Obligations.StoreThenLoadRegisters := by
  unfold Obligations.StoreThenLoadRegisters
  intro x s v h
  refine ⟨_, _, exec_ldIVx_of_inRange h, exec_ldVxI_of_inRange h, fun r hr => ?_, fun r hr => ?_⟩
  · exact (State.reg_setRegs_loadedRegs_le _ hr).trans (s.advance.byte_store_lowRegs s h hr)
  · exact State.reg_setRegs_loadedRegs_above _ (Nat.not_le.2 hr)

/-- Settles O31: of the stored range every byte is known, and R65 gives the bytes outside it. -/
theorem registersStored : Obligations.RegistersStored := by
  unfold Obligations.RegistersStored
  intro x s
  refine ⟨decode_encode (.ldIVx x), fun h => ⟨_, exec_ldIVx_of_inRange h, ?_, effect_bytes (.ldIVx x) s, rfl⟩, ?_⟩
  · exact fun r hr => s.advance.byte_store_lowRegs s h hr
  · exact fun h => State.entersFault_checked_of_outOfRange h

/-- Settles O32: the registers up to x are loaded, those above x are kept. -/
theorem registersLoaded : Obligations.RegistersLoaded := by
  unfold Obligations.RegistersLoaded
  intro x s
  refine ⟨decode_encode (.ldVxI x), fun h => ⟨_, exec_ldVxI_of_inRange h, ?_, ?_, rfl⟩, ?_⟩
  · exact fun r hr => State.reg_setRegs_loadedRegs_le s.advance hr
  · exact fun r hr => State.reg_setRegs_loadedRegs_above s.advance (Nat.not_le.2 hr)
  · exact fun h => State.entersFault_checked_of_outOfRange h

/-! ### LD_B_Vx (R173) -/

/-- LD_B_Vx with its range inside memory (R173). -/
theorem exec_ldBVx_of_inRange (h : s.i.toNat + 2 ≤ 0xFFF) :
    exec (.ldBVx x) s = .next (s.advance.store s.i.toNat (bcdDigits (s.reg x))) :=
  State.checked_of_inRange h

/-- The k-th byte of a range stored inside memory reads as the k-th byte of the list. -/
theorem State.byte_store_add (s : State) {a k : Nat} {bs : List Byte} (h : a + bs.length ≤ 0x1000) (hk : k < bs.length) :
    (s.store a bs).byte (a + k) = bs[k] := by
  rw [s.byte_store a bs _ h, if_pos (by omega), Nat.add_sub_cancel_left, List.getD_eq_getElem _ _ hk]

/-- The bytes LD_B_Vx stores are decimal digits, and together they make the byte (R173). -/
theorem bcdDigits_decimal (b : Byte) :
    (bcdDigits b)[0].toNat ≤ 2 ∧ (bcdDigits b)[1].toNat ≤ 9 ∧ (bcdDigits b)[2].toNat ≤ 9 ∧
      (bcdDigits b)[0].toNat * 100 + (bcdDigits b)[1].toNat * 10 + (bcdDigits b)[2].toNat = b.toNat := by
  have hb := b.isLt
  simp only [bcdDigits, List.getElem_cons_zero, List.getElem_cons_succ, BitVec.toNat_ofNat]
  omega

/-- Settles O30: the stored bytes are the digits of `bcdDigits`, and R65 gives the bytes outside them. -/
theorem bcdDigitsStored : Obligations.BcdDigitsStored := by
  unfold Obligations.BcdDigitsStored
  intro x s
  refine ⟨decode_encode (.ldBVx x), fun h => ?_, fun h => State.entersFault_checked_of_outOfRange h⟩
  have hbyte (k : Nat) (hk : k < 3) := s.advance.byte_store_add (bs := bcdDigits (s.reg x)) (Nat.succ_le_succ h) hk
  obtain ⟨h2, h1, h0, hsum⟩ := bcdDigits_decimal (s.reg x)
  exact ⟨_, _, _, _, exec_ldBVx_of_inRange h, hbyte 0 (by decide), hbyte 1 (by decide), hbyte 2 (by decide), h2, h1, h0, hsum,
    effect_bytes (.ldBVx x) s, rfl⟩

/-! ### The writers of I (R170 to R172) -/

/-- A byte times 5 fits I (R172). -/
theorem glyphAddress_toNat (b : Byte) : (glyphAddress b).toNat = b.toNat * 5 := by
  have hb := b.isLt
  rw [glyphAddress, BitVec.toNat_ofNat]
  omega

/-- Settles O29: each writes I once, after the +2. -/
theorem indexRegisterWrites : Obligations.IndexRegisterWrites := by
  unfold Obligations.IndexRegisterWrites
  intro nnn x s
  refine ⟨decode_encode (.ldIAddr nnn), decode_encode (.addIVx x), decode_encode (.ldFVx x), ?_, ?_, ?_⟩
  · exact ⟨s.advance.setI _, rfl, zext16_toNat nnn, rfl⟩
  · exact ⟨s.advance.setI _, rfl, BitVec.toNat_ofNat _ 16, rfl⟩
  · exact ⟨s.advance.setI _, rfl, glyphAddress_toNat (s.reg x), rfl⟩

end Sys2Proof.Machine
end

section
/-!
PROOFS. The timer instructions (44_timers.md R185 to R187; O34). Each is one write after the +2: a register from DT, or a timer from a
register. That its word decodes to it is `decode_encode`.
-/

namespace Sys2Proof.Machine

variable (x : Reg) (s : State)

/-- LD_Vx_DT writes DT to V[x] (R185). -/
theorem exec_ldVxDt : exec (.ldVxDt x) s = .next (s.advance.setReg x s.dt) := rfl

/-- LD_DT_Vx sets DT to V[x] (R186). -/
theorem exec_ldDtVx : exec (.ldDtVx x) s = .next { s with pc := s.pc + 2, dt := s.reg x } := rfl

/-- LD_ST_Vx sets ST to V[x] (R187). -/
theorem exec_ldStVx : exec (.ldStVx x) s = .next { s with pc := s.pc + 2, st := s.reg x } := rfl

/-- Settles O34: reading a timer is one register write, and setting one leaves the registers and the other timer alone. -/
theorem timerInstructions : Obligations.TimerInstructions := by
  unfold Obligations.TimerInstructions
  intro x s
  refine ⟨decode_encode (.ldVxDt x), decode_encode (.ldDtVx x), decode_encode (.ldStVx x), ?_, exec_ldDtVx x s, exec_ldStVx x s⟩
  exact ⟨_, exec_ldVxDt x s, writesReg_advance_setReg s x s.dt⟩

end Sys2Proof.Machine
end

section
/-!
PROOFS. The display, the keys and the wait for a key (45_io.md R200 to R208; O37, O38, O40 to O43, O51). The calls of one DRW go to
pixels that are all different, so that each is XORed at most once and a call meets the pixel as it was before the instruction: that
gives the plane and the collision of any such list of calls, and DRW adds where the calls of its sprite go. The rest is one write or
one port call for each instruction. That a word decodes to its instruction is `decode_encode`.
-/

namespace Sys2Proof.Machine

variable {s : State} {x y : Reg} {n : Nibble} {k : Key}

/-! ### Calls to different pixels (R36, R201) -/

/-- The call goes to the pixel (px, py), on the wrapping plane. -/
abbrev PixelCall.GoesTo (c : PixelCall) (px py : Nat) : Prop := px % 64 = c.x % 64 ∧ py % 32 = c.y % 32

/-- The call flips the pixel (px, py): it goes there, and its bit is 1. -/
def PixelCall.flips (c : PixelCall) (px py : Nat) : Bool := decide (c.GoesTo px py) && c.bit

/-- The two calls go to different pixels. -/
def PixelCall.Apart (c d : PixelCall) : Prop := ¬ d.GoesTo c.x c.y

theorem PixelCall.flips_iff (c : PixelCall) (px py : Nat) : c.flips px py = true ↔ c.GoesTo px py ∧ c.bit = true := by
  simp [PixelCall.flips]

theorem PixelCall.GoesTo.pixel_eq {c : PixelCall} {px py : Nat} (h : c.GoesTo px py) (p : Plane) :
    pixel p px py = pixel p c.x c.y := by
  rw [← pixel_mod p px, ← pixel_mod p c.x, h.1, h.2]

/-- One call flips the pixel it goes to, if its bit is 1, and no other. -/
theorem PixelCall.pixel_setPixel (c : PixelCall) (p : Plane) (px py : Nat) :
    pixel (setPixel p c.x c.y c.bit).1 px py = (pixel p px py ^^ c.flips px py) :=
  Machine.pixel_setPixel p c.x c.y c.bit px py

/-- A pixel that one of two calls apart goes to is not flipped by the other. -/
theorem PixelCall.Apart.flips_eq_false {c d : PixelCall} {px py : Nat} (h : c.Apart d) (hd : d.GoesTo px py) :
    c.flips px py = false := by
  refine Bool.eq_false_iff.2 fun hf => h ?_
  obtain ⟨⟨hx, hy⟩, -⟩ := (c.flips_iff px py).1 hf
  exact ⟨hx.symm.trans hd.1, hy.symm.trans hd.2⟩

variable {cs : List PixelCall}

/-- Calls to different pixels flip each pixel at most once. -/
theorem pixel_drawCalls (h : cs.Pairwise PixelCall.Apart) (p : Plane) (px py : Nat) :
    pixel (drawCalls cs p).1 px py = (pixel p px py ^^ cs.any (·.flips px py)) := by
  induction cs generalizing p with
  | nil => simp [drawCalls]
  | cons c cs ih =>
    obtain ⟨hc, hcs⟩ := List.pairwise_cons.1 h
    have hxor : (c.flips px py ^^ cs.any (·.flips px py)) = (c.flips px py || cs.any (·.flips px py)) := by
      cases hany : cs.any (·.flips px py) with
      | false => simp
      | true =>
        obtain ⟨d, hd, hf⟩ := List.any_eq_true.1 hany
        simp [(hc d hd).flips_eq_false ((d.flips_iff px py).1 hf).1]
    calc pixel (drawCalls cs (setPixel p c.x c.y c.bit).1).1 px py
      _ = (pixel p px py ^^ c.flips px py ^^ cs.any (·.flips px py)) := by rw [ih hcs, c.pixel_setPixel]
      _ = (pixel p px py ^^ (c :: cs).any (·.flips px py)) := by rw [Bool.xor_assoc, hxor, List.any_cons]

/-- Calls to different pixels meet the pixels as they were before the first call. -/
theorem drawCalls_collision_iff (h : cs.Pairwise PixelCall.Apart) (p : Plane) :
    (drawCalls cs p).2 = true ↔ ∃ c ∈ cs, pixel p c.x c.y = true ∧ c.bit = true := by
  induction cs generalizing p with
  | nil => simp [drawCalls]
  | cons c cs ih =>
    obtain ⟨hc, hcs⟩ := List.pairwise_cons.1 h
    have hsame (d : PixelCall) (hd : d ∈ cs) : pixel (setPixel p c.x c.y c.bit).1 d.x d.y = pixel p d.x d.y := by
      rw [c.pixel_setPixel, (hc d hd).flips_eq_false ⟨rfl, rfl⟩, Bool.xor_false]
    simp only [drawCalls, setPixel_collision, Bool.or_eq_true, Bool.and_eq_true, ih hcs, List.exists_mem_cons_iff]
    exact or_congr_right (exists_congr fun d => and_congr_right fun hd => by rw [hsame d hd])

/-- Some call meets a set pixel with a 1 bit exactly when some pixel is set and flipped by the calls. -/
theorem exists_call_iff_exists_pixel (cs : List PixelCall) (p : Plane) :
    (∃ c ∈ cs, pixel p c.x c.y = true ∧ c.bit = true) ↔
      ∃ px py, px < 64 ∧ py < 32 ∧ pixel p px py = true ∧ cs.any (·.flips px py) = true := by
  constructor
  · rintro ⟨c, hc, hp, hbit⟩
    have hflip : c.flips (c.x % 64) (c.y % 32) = true := (c.flips_iff _ _).2 ⟨⟨Nat.mod_mod _ _, Nat.mod_mod _ _⟩, hbit⟩
    refine ⟨c.x % 64, c.y % 32, Nat.mod_lt _ (by decide), Nat.mod_lt _ (by decide), ?_, List.any_eq_true.2 ⟨c, hc, hflip⟩⟩
    rw [pixel_mod, hp]
  · rintro ⟨px, py, -, -, hp, hany⟩
    obtain ⟨c, hc, hf⟩ := List.any_eq_true.1 hany
    obtain ⟨hgoes, hbit⟩ := (c.flips_iff px py).1 hf
    exact ⟨c, hc, hgoes.pixel_eq p ▸ hp, hbit⟩

/-! ### Where the calls of DRW go (R201) -/

/-- The call of DRW x, y for one row and one column of its sprite. -/
def State.drwCall (s : State) (x y : Reg) (row col : Nat) : PixelCall :=
  ⟨((s.reg x).toNat + col) % 64, ((s.reg y).toNat + row) % 32, (s.byte (s.i.toNat + row)).getLsbD (7 - col)⟩

/-- The calls of a DRW, row by row and column by column (R202). -/
theorem State.drwCalls_eq (s : State) (x y : Reg) (n : Nibble) :
    s.drwCalls x y n = (List.range n.toNat).flatMap fun row => (List.range 8).map (s.drwCall x y row) := by
  have hcalls := spriteCalls_bytes s (s.reg x).toNat (s.reg y).toNat s.i.toNat 0 n.toNat
  rw [Nat.add_zero, ← List.range_eq_range'] at hcalls
  exact hcalls

theorem State.mem_drwCalls {c : PixelCall} :
    c ∈ s.drwCalls x y n ↔ ∃ row < n.toNat, ∃ col < 8, s.drwCall x y row col = c := by
  simp [State.drwCalls_eq]

/-- A sprite of at most 15 rows and 8 columns does not meet itself on the 64 x 32 plane. -/
theorem State.drwCalls_apart (s : State) (x y : Reg) (n : Nibble) : (s.drwCalls x y n).Pairwise PixelCall.Apart := by
  have hn := n.isLt
  have hlt (m : Nat) : (List.range m).Pairwise fun a b => a < b ∧ b < m :=
    List.pairwise_lt_range.imp_of_mem fun _ hb hab => ⟨hab, List.mem_range.1 hb⟩
  rw [State.drwCalls_eq, List.pairwise_flatMap]
  constructor
  · refine fun row _ => List.pairwise_map.2 ((hlt 8).imp fun hcol hgoes => ?_)
    simp only [PixelCall.GoesTo, State.drwCall] at hgoes
    omega
  · refine (hlt n.toNat).imp fun {a b} hrow c hc d hd hgoes => ?_
    obtain ⟨i, -, rfl⟩ := List.mem_map.1 hc
    obtain ⟨j, -, rfl⟩ := List.mem_map.1 hd
    simp only [PixelCall.GoesTo, State.drwCall] at hgoes
    omega

theorem spriteBit_iff {px py : Nat} :
    spriteBit s x y n px py = true ↔
      (px + 256 - (s.reg x).toNat) % 64 < 8 ∧ (py + 256 - (s.reg y).toNat) % 32 < n.toNat ∧
        (s.drwCall x y ((py + 256 - (s.reg y).toNat) % 32) ((px + 256 - (s.reg x).toNat) % 64)).bit = true := by
  simp [spriteBit, State.drwCall, and_assoc]

/-- The call that goes to a pixel is the one of the pixel's row and column in the sprite. -/
theorem State.drwCall_goesTo_iff {row col px py : Nat} (hx : px < 64) (hy : py < 32) (hrow : row < 32) (hcol : col < 64) :
    (s.drwCall x y row col).GoesTo px py ↔
      col = (px + 256 - (s.reg x).toNat) % 64 ∧ row = (py + 256 - (s.reg y).toNat) % 32 := by
  have hvx := (s.reg x).isLt
  have hvy := (s.reg y).isLt
  simp only [PixelCall.GoesTo, State.drwCall]
  omega

/-- The calls of a DRW flip the pixels where its sprite has a 1 bit. -/
theorem State.any_flips_drwCalls {px py : Nat} (hx : px < 64) (hy : py < 32) :
    (s.drwCalls x y n).any (·.flips px py) = spriteBit s x y n px py := by
  have hn := n.isLt
  rw [Bool.eq_iff_iff, List.any_eq_true, spriteBit_iff]
  constructor
  · rintro ⟨c, hc, hf⟩
    obtain ⟨row, hrow, col, hcol, rfl⟩ := State.mem_drwCalls.1 hc
    obtain ⟨hgoes, hbit⟩ := (PixelCall.flips_iff _ px py).1 hf
    obtain ⟨rfl, rfl⟩ := (State.drwCall_goesTo_iff hx hy (by omega) (by omega)).1 hgoes
    exact ⟨hcol, hrow, hbit⟩
  · rintro ⟨hcol, hrow, hbit⟩
    have hgoes := (State.drwCall_goesTo_iff (s := s) (x := x) (y := y) hx hy (by omega) (by omega)).2 ⟨rfl, rfl⟩
    exact ⟨_, State.mem_drwCalls.2 ⟨_, hrow, _, hcol, rfl⟩, (PixelCall.flips_iff _ px py).2 ⟨hgoes, hbit⟩⟩

/-! ### What DRW leaves (R201) -/

/-- DRW XORs its sprite onto the plane. -/
theorem State.pixel_drawn {px py : Nat} (hx : px < 64) (hy : py < 32) :
    pixel (s.drawn x y n).plane px py = (pixel s.plane px py ^^ spriteBit s x y n px py) := by
  rw [← State.any_flips_drwCalls hx hy]
  exact pixel_drawCalls (s.drwCalls_apart x y n) s.plane px py

theorem State.drawn_reg_15 (s : State) (x y : Reg) (n : Nibble) :
    (s.drawn x y n).reg 15 = flagByte (drawCalls (s.drwCalls x y n) s.plane).2 :=
  State.reg_setReg_self _ 15 _

theorem State.drawn_reg_other {r : Reg} (hr : r ≠ 15) : (s.drawn x y n).reg r = s.reg r := State.reg_setReg_other _ 15 r _ hr

theorem flagByte_eq_zero_or_one (f : Bool) : flagByte f = 0 ∨ flagByte f = 1 := by cases f <;> decide

theorem flagByte_eq_one_iff (f : Bool) : flagByte f = 1 ↔ f = true := by cases f <;> decide

/-- VF is the collision: a 1 bit of the sprite met a set pixel. -/
theorem State.drawn_collision_iff (s : State) (x y : Reg) (n : Nibble) :
    (s.drawn x y n).reg 15 = 1 ↔
      ∃ px py, px < 64 ∧ py < 32 ∧ pixel s.plane px py = true ∧ spriteBit s x y n px py = true := by
  rw [State.drawn_reg_15, flagByte_eq_one_iff, drawCalls_collision_iff (s.drwCalls_apart x y n), exists_call_iff_exists_pixel]
  refine exists_congr fun px => exists_congr fun py => and_congr_right fun hx => and_congr_right fun hy => ?_
  rw [State.any_flips_drwCalls hx hy]

/-- DRW with no row makes no call. -/
theorem State.drawn_zero (s : State) (x y : Reg) : s.drawn x y 0 = s.advance.setReg 15 0 := rfl

/-- DRW with its rows beyond memory (R201). -/
theorem entersFault_exec_drw_of_outOfRange (hn : n ≠ 0) (h : 0xFFF < s.i.toNat + n.toNat - 1) :
    EntersFault (exec (.drw x y n) s) s (.memoryOutOfRange s.pc (BitVec.ofNat 16 (max s.i.toNat 0x1000))) := by
  rw [exec, execDrw, if_neg hn]
  exact State.entersFault_checked_of_outOfRange h

/-- Settles O38: the calls go to different pixels, and flip those where the sprite has a 1 bit. -/
theorem spriteDrawn : Obligations.SpriteDrawn := by
  unfold Obligations.SpriteDrawn
  intro x y n s
  refine ⟨decode_encode (.drw x y n), fun h => ?_, entersFault_exec_drw_of_outOfRange⟩
  refine ⟨s.drawn x y n, exec_drw_of_inRange h, fun _ _ => State.pixel_drawn, ?_, s.drawn_collision_iff x y n,
    fun _ => State.drawn_reg_other, ?_, rfl⟩
  · rw [State.drawn_reg_15]
    exact flagByte_eq_zero_or_one _
  · rintro rfl
    rw [State.drawn_zero]
    exact ⟨State.reg_setReg_self _ 15 0, rfl, rfl⟩

/-- DRW leaves its own sprite as it was, unless V[x] or V[y] is VF. -/
theorem State.spriteBit_drawn (hx : x ≠ 15) (hy : y ≠ 15) (px py : Nat) :
    spriteBit (s.drawn x y n) x y n px py = spriteBit s x y n px py := by
  simp only [spriteBit, State.drawn_reg_other hx, State.drawn_reg_other hy]
  rfl

/-- Settles O40: the second DRW XORs the same bits, and meets a set pixel where the first one set it. -/
theorem drawTwiceRestoresPlane : Obligations.DrawTwiceRestoresPlane := by
  unfold Obligations.DrawTwiceRestoresPlane
  intro x y n s hx hy h
  refine ⟨s.drawn x y n, _, exec_drw_of_inRange h, exec_drw_of_inRange h, fun px py hpx hpy => ?_, ?_⟩
  · rw [State.pixel_drawn hpx hpy, State.spriteBit_drawn hx hy, State.pixel_drawn hpx hpy, Bool.xor_assoc, Bool.xor_self,
      Bool.xor_false]
  · rw [State.drawn_collision_iff]
    refine exists_congr fun px => exists_congr fun py => and_congr_right fun hpx => and_congr_right fun hpy => ?_
    rw [State.spriteBit_drawn hx hy, State.pixel_drawn hpx hpy]
    cases pixel s.plane px py <;> simp

/-! ### CLS (R200) -/

/-- Settles O37: the plane that clear() leaves is blank. -/
theorem clearPlane : Obligations.ClearPlane := by
  unfold Obligations.ClearPlane
  exact ⟨decode_encode .cls, fun s => ⟨(s.advance.setPlane blankPlane).emit [.clear], rfl, pixel_blankPlane, rfl⟩⟩

/-! ### Keys (R203 to R208) -/

theorem State.skip_not (s : State) (b : Bool) : s.skip (!b) = { s with pc := if b then s.pc + 2 else s.pc + 4 } := by
  cases b <;> rfl

/-- Settles O41: SKP_Vx skips on the answer, SKNP_Vx on its negation. -/
theorem skipOnKey : Obligations.SkipOnKey := by
  unfold Obligations.SkipOnKey
  intro x s
  refine ⟨decode_encode (.skpVx x), decode_encode (.sknpVx x), rfl, ?_⟩
  exact congrArg _ ((s.queryKey x).skip_not (s.keyAnswer x))

/-- What LD_Vx_K answers (R206). -/
theorem exec_ldVxK (x : Reg) (s : State) : exec (.ldVxK x) s = .next ((s.advance.awaitKey x).emit [.onNextKeyPress x]) := rfl

/-- Settles O42: the pause and the registration, after the +2. -/
theorem waitForKey : Obligations.WaitForKey := by
  unfold Obligations.WaitForKey
  exact fun x s => ⟨decode_encode (.ldVxK x), exec_ldVxK x s⟩

/-- The event with register `x` pending (R207). -/
theorem State.keyPress_of_pending (k : Key) (h : s.pendingKey = some x) :
    s.keyPress k = { s.setReg x (BitVec.ofNat 8 k.val) with pendingKey := none, pause := false } := by
  rw [State.keyPress, h]

/-- The event with no register pending (R207). -/
theorem State.keyPress_of_none_pending (k : Key) (h : s.pendingKey = none) : s.keyPress k = s := by rw [State.keyPress, h]

/-- A key code fits a register (R207). -/
theorem ofNat_key_toNat (k : Key) : (BitVec.ofNat 8 k.val).toNat = k.val := by
  have hk := k.isLt
  rw [BitVec.toNat_ofNat]
  omega

/-- Settles O43: with a register pending the event is one register write and the end of the pause. -/
theorem keyPressEvent : Obligations.KeyPressEvent := by
  unfold Obligations.KeyPressEvent
  refine fun s k => ⟨fun x hx => ?_, State.keyPress_of_none_pending k⟩
  refine ⟨?_, fun r hr => s.reg_keyPress_of_not_pending k ?_, ?_⟩
  · rw [State.keyPress_of_pending k hx]
    exact (congrArg BitVec.toNat (s.reg_setReg_self x _)).trans (ofNat_key_toNat k)
  · rw [hx]
    exact fun hrx => hr (Option.some.inj hrx).symm
  · rw [State.keyPress_of_pending k hx]
    rfl

/-- An accepted load leaves no register pending (R208, R274). -/
theorem State.load_pendingKey {p : List Byte} (h : p.length ≤ 3584) : (s.load p).pendingKey = none := by
  rw [State.load, if_pos ((programFits_iff p).2 h)]
  rfl

/-- Settles O51: reset and an accepted load leave no register pending. -/
theorem cancelledKeyWait : Obligations.CancelledKeyWait := by
  unfold Obligations.CancelledKeyWait
  exact fun s k p h => ⟨State.keyPress_of_none_pending k rfl, State.keyPress_of_none_pending k (State.load_pendingKey h)⟩

end Sys2Proof.Machine
end

section
/-!
PROOFS. The timers count down at the timer stage of every tick (60_exceptions.md R243, R281; O36), and the instructions that raise no
fault of their own (60_exceptions.md R230, R234; O60).
-/

namespace Sys2Proof.Machine

/-! ### The timer stage of j ticks (R243, R281) -/

/-- A timer after j timer stages: each takes 1 from what the ones before it left. -/
theorem countDown_iterate_toNat (j : Nat) (b : Byte) : (countDown^[j] b).toNat = b.toNat - j := by
  induction j with
  | zero => rfl
  | succ j ih => rw [Function.iterate_succ_apply', countDown_toNat, ih, Nat.sub_sub]

/-- DT goes through the timer stages on its own. -/
theorem State.timerStage_iterate_dt (j : Nat) (s : State) : (State.timerStage^[j] s).dt = countDown^[j] s.dt :=
  Function.Semiconj.iterate_right (f := State.dt) (fun _ => rfl) j s

/-- ST goes through the timer stages on its own. -/
theorem State.timerStage_iterate_st (j : Nat) (s : State) : (State.timerStage^[j] s).st = countDown^[j] s.st :=
  Function.Semiconj.iterate_right (f := State.st) (fun _ => rfl) j s

/-- Settles O36: the two timers are independent, and each counts down by induction on the number of stages. -/
theorem timersCountDown : Obligations.TimersCountDown := by
  unfold Obligations.TimersCountDown
  intro j s
  rw [State.timerStage_iterate_dt, State.timerStage_iterate_st]
  exact ⟨countDown_iterate_toNat j s.dt, countDown_iterate_toNat j s.st⟩

/-! ### The instructions without a fault of their own (R230, R234) -/

@[simp] theorem State.writeback_runState (u : State) (x : Reg) (r f : Byte) : (u.writeback x r f).runState = u.runState := by
  rw [u.writeback_frame]
@[simp] theorem State.writeback_fault (u : State) (x : Reg) (r f : Byte) : (u.writeback x r f).fault = u.fault := by
  rw [u.writeback_frame]
@[simp] theorem State.writeback_phase (u : State) (x : Reg) (r f : Byte) : (u.writeback x r f).phase = u.phase := by
  rw [u.writeback_frame]
@[simp] theorem State.writeback_lastResult (u : State) (x : Reg) (r f : Byte) :
    (u.writeback x r f).lastResult = u.lastResult := by
  rw [u.writeback_frame]

/-- Settles O60, by the instruction: the six that can fault are excluded, and each of the others answers one state, made by operations
that write none of the four fields. -/
theorem onlyCheckedInstructionsFault : Obligations.OnlyCheckedInstructionsFault := by
  unfold Obligations.OnlyCheckedInstructionsFault
  rintro i s t ht ⟨hret, hcall, hdrw, hbcd, hstore, hload⟩
  cases i
  case ret => exact absurd rfl hret
  case callAddr nnn => exact absurd rfl (hcall nnn)
  case drw x y n => exact absurd rfl (hdrw x y n)
  case ldBVx x => exact absurd rfl (hbcd x)
  case ldIVx x => exact absurd rfl (hstore x)
  case ldVxI x => exact absurd rfl (hload x)
  all_goals cases ht
  case addVxVy | subVxVy | shr | subn | shl => simp
  all_goals exact ⟨rfl, rfl, rfl, rfl⟩

end Sys2Proof.Machine
end

section
/-!
PROOFS. Reset and load (70_reset_and_hazards.md R271 to R276; O44 to O47). After reset memory lists no cell, so every byte is its
reset contents. Load has two answers, by the length of the program, and each is said once; an accepted load stores one range, so its
bytes are those of `State.byte_store`.
-/

namespace Sys2Proof.Machine

variable {s : State} {p : List Byte}

/-! ### Reset (R271 to R273) -/

/-- Settles O44: the bytes are the reset contents, the glyphs below 0x050 and zeros above. -/
theorem resetValues : Obligations.ResetValues := by
  unfold Obligations.ResetValues
  intro s
  refine ⟨s.reg_hostReset, fun a h => ?_, fun a h _ => ?_, rfl⟩
  · exact Memory.initial_glyph s.glyphs a h
  · exact Memory.initial_zero s.glyphs a h

/-- Settles O45: after reset a byte depends on P_GLYPHS only, and from 0x050 on not even on it. -/
theorem resetIsIdempotent : Obligations.ResetIsIdempotent := by
  unfold Obligations.ResetIsIdempotent
  intro s t
  refine ⟨fun hg a => ?_, fun a h => ?_, rfl, rfl, rfl, rfl, rfl, rfl, rfl⟩
  · rw [s.byte_hostReset, t.byte_hostReset, hg]
  · rw [s.byte_hostReset, t.byte_hostReset, Memory.initial_zero s.glyphs a h, Memory.initial_zero t.glyphs a h]

/-! ### Load (R274, R276) -/

theorem State.load_of_fits (h : p.length ≤ 3584) :
    s.load p = { s.hostReset.store 0x200 p with runState := .ready, lastResult := some .ok } :=
  if_pos ((programFits_iff p).2 h)

theorem State.load_of_too_long (h : 3584 < p.length) : s.load p = { s with lastResult := some (.loadError p.length) } :=
  if_neg (Bool.eq_false_iff.1 ((programFits_eq_false p).2 h))

/-- The run state and the last result are no part of memory. -/
theorem State.byte_load (h : p.length ≤ 3584) (a : Nat) : (s.load p).byte a = (s.hostReset.store 0x200 p).byte a := by
  rw [State.load_of_fits h]
  rfl

/-- Settles O46: the program is the stored range, and the bytes outside it are those of reset. -/
theorem loadInstallsProgram : Obligations.LoadInstallsProgram := by
  unfold Obligations.LoadInstallsProgram
  intro s p h
  refine ⟨fun k hk => ?_, fun a ha => ?_, ?_⟩
  · rw [State.byte_load h]
    exact s.hostReset.byte_store_add (by omega) hk
  · rw [State.byte_load h]
    exact s.hostReset.byte_store_outside 0x200 p a ha
  · rw [State.load_of_fits h]
    rfl

/-- Settles O47: 3584 bytes from 0x200 on end with 0xFFF, so that every address from 0x200 on lies in the stored range. -/
theorem loadTooLongChangesNothing : Obligations.LoadTooLongChangesNothing := by
  unfold Obligations.LoadTooLongChangesNothing
  refine fun s p => ⟨State.load_of_too_long, fun hlen => ?_⟩
  have hfits := hlen.le
  refine ⟨?_, ?_, fun a hlo hhi => ?_⟩
  · rw [State.load_of_fits hfits]
  · rw [State.load_of_fits hfits]
  · rw [State.byte_load hfits, s.hostReset.byte_store 0x200 p a (by omega), if_pos (by omega)]

end Sys2Proof.Machine
end
